-- ==== Sys2Proof/Word.lean ====
section
/-! DEFINITION. The word types of the block (spec/48_arithmetic_sequencing_access.md R200): a byte is 8 bits, the
command word 24 bits, the response 16 bits, a live timing constant `T_WIDTH` = 32 bits (spec/00_scope.md R6). -/

namespace Sys2Proof

/-- A byte: "8 bits, an unsigned number 0 to 255" (00_scope.md, notation). -/
abbrev Byte := BitVec 8

/-- The command word `op[23:16] a[15:8] b[7:0]` (30_encoding.md R61). -/
abbrev CmdWord := BitVec 24

/-- The response word `STATUS[15:8] DATA[7:0]` (30_encoding.md R62). -/
abbrev RespWord := BitVec 16

/-- A duration register: `T_WIDTH` = 32 bits (00_scope.md R6, 10_state.md R24). -/
abbrev Duration := BitVec 32

/-- The identity, eight bytes: byte 0 the family code, bytes 1 to 6 the serial, byte 7 the CRC8 (10_state.md R13). -/
abbrev Ident := Vector Byte 8

end Sys2Proof
end

