-- ==== Sys2Proof/Syntax.lean ====
section
/-! DEFINITION. The commands of the block: one constructor per row of spec/opcode_table.json (spec/30_encoding.md R63).
Operands are the bytes of the command word's fields `a` and `b`, taken unchanged (R64); the ranges are
WellFormed.lean's. -/

namespace Sys2Proof

inductive Instr where
  /-- `INIT` (R90). -/
  | init
  /-- `SELCH n` (R82). -/
  | selch (n : Byte)
  /-- `WAITCONV` (R91). -/
  | waitconv
  /-- `OWRESET` (R101). -/
  | owreset
  /-- `OWWBIT x` (R103). -/
  | owwbit (x : Byte)
  /-- `OWRBIT` (R105). -/
  | owrbit
  /-- `OWWBYTE v` (R110). -/
  | owwbyte (v : Byte)
  /-- `OWRBYTE` (R111). -/
  | owrbyte
  /-- `CRCINIT` (R128). -/
  | crcinit
  /-- `CRCUPD v` (R129). -/
  | crcupd (v : Byte)
  /-- `CRCCHK v` (R130). -/
  | crcchk (v : Byte)
  /-- `SRCHFIRST` (R150). -/
  | srchfirst
  /-- `SRCHNEXT` (R152). -/
  | srchnext
  /-- `SRCHVERIFY` (R153). -/
  | srchverify
  /-- `IDRD k` (R170). -/
  | idrd (k : Byte)
  /-- `IDWR k, v` (R171). -/
  | idwr (k v : Byte)
  /-- `STRD s` (R172). -/
  | strd (sel : Byte)
deriving DecidableEq, Repr

end Sys2Proof
end

