-- ==== Sys2Proof/WellFormed.lean ====
section
/-! DEFINITION. When a command's operands are legal (spec/30_encoding.md R64, R65): a one-bit operand has
`b[7:1] = 0`, an identity-buffer index is at most 7, a register select at most 5; a channel number and a data byte are
any byte. -/

namespace Sys2Proof

/-- The operand checks of R64. -/
def Instr.wf : Instr → Bool
  | .init => true
  | .selch _ => true
  | .waitconv => true
  | .owreset => true
  | .owwbit x => decide (x.toNat ≤ 1)
  | .owrbit => true
  | .owwbyte _ => true
  | .owrbyte => true
  | .crcinit => true
  | .crcupd _ => true
  | .crcchk _ => true
  | .srchfirst => true
  | .srchnext => true
  | .srchverify => true
  | .idrd k => decide (k.toNat ≤ 7)
  | .idwr k _ => decide (k.toNat ≤ 7)
  | .strd sel => decide (sel.toNat ≤ 5)

/-- The instruction has a command word (R64). -/
abbrev Instr.WellFormed (i : Instr) : Prop := i.wf = true

end Sys2Proof
end

