-- ==== Sys2Proof/Decode.lean ====
section
/-! DEFINITION. The command word's decoder, total on every 24-bit word, its encoder, the opcode map as the table of
spec/30_encoding.md R63, and the mnemonics. -/

namespace Sys2Proof

/-- The field `op`, bits 23:16 (R61). -/
def opField (w : CmdWord) : Byte := w.extractLsb' 16 8

/-- The field `a`, bits 15:8 (R61). -/
def aField (w : CmdWord) : Byte := w.extractLsb' 8 8

/-- The field `b`, bits 7:0 (R61). -/
def bField (w : CmdWord) : Byte := w.extractLsb' 0 8

/-- The command word with the given fields (R61). -/
def cmdWord (op a b : Byte) : CmdWord := op ++ a ++ b

/-- Why a command word is illegal: the five causes R65 lists. -/
inductive Illegal where
  /-- "an `op` not in the table". -/
  | unknownOp
  /-- "a nonzero unused field". -/
  | unusedField
  /-- "`b[7:1] != 0` on `OWWBIT`". -/
  | bitOperand
  /-- "`a > 7` on `IDRD` or `IDWR`". -/
  | indexRange
  /-- "`a > 5` on `STRD`". -/
  | selectRange
deriving DecidableEq, Repr

/-- A command with both fields unused: each must be 0 (R64). -/
def decodeNoOperand (a b : Byte) (i : Instr) : Except Illegal Instr :=
  if a = 0 ∧ b = 0 then .ok i else .error .unusedField

/-- A command whose operand is `b`: `a` must be 0 (R64). -/
def decodeB (a : Byte) (i : Instr) : Except Illegal Instr :=
  if a = 0 then .ok i else .error .unusedField

/-- A command whose operand is `a`: `b` must be 0 (R64). -/
def decodeA (b : Byte) (i : Instr) : Except Illegal Instr :=
  if b = 0 then .ok i else .error .unusedField

/-- Check an operand's range. -/
def decodeChecked (ok : Bool) (why : Illegal) (r : Except Illegal Instr) : Except Illegal Instr :=
  if ok then r else .error why

/-- The decoder (R63, R64, R65). -/
def decode (w : CmdWord) : Except Illegal Instr :=
  let a := aField w
  let b := bField w
  match (opField w).toNat with
  | 0x01 => decodeNoOperand a b .init
  | 0x02 => decodeA b (.selch a)
  | 0x03 => decodeNoOperand a b .waitconv
  | 0x10 => decodeNoOperand a b .owreset
  | 0x11 => decodeChecked (decide (b.toNat ≤ 1)) .bitOperand (decodeB a (.owwbit b))
  | 0x12 => decodeNoOperand a b .owrbit
  | 0x13 => decodeB a (.owwbyte b)
  | 0x14 => decodeNoOperand a b .owrbyte
  | 0x20 => decodeNoOperand a b .crcinit
  | 0x21 => decodeB a (.crcupd b)
  | 0x22 => decodeB a (.crcchk b)
  | 0x30 => decodeNoOperand a b .srchfirst
  | 0x31 => decodeNoOperand a b .srchnext
  | 0x32 => decodeNoOperand a b .srchverify
  | 0x40 => decodeChecked (decide (a.toNat ≤ 7)) .indexRange (decodeA b (.idrd a))
  | 0x41 => decodeChecked (decide (a.toNat ≤ 7)) .indexRange (.ok (.idwr a b))
  | 0x42 => decodeChecked (decide (a.toNat ≤ 5)) .selectRange (decodeA b (.strd a))
  | _ => .error .unknownOp

/-- The encoder, from the columns `op`, `a`, `b` of R63's table: the command word of a well-formed instruction. -/
def encode : Instr → CmdWord
  | .init => cmdWord 0x01 0 0
  | .selch n => cmdWord 0x02 n 0
  | .waitconv => cmdWord 0x03 0 0
  | .owreset => cmdWord 0x10 0 0
  | .owwbit x => cmdWord 0x11 0 x
  | .owrbit => cmdWord 0x12 0 0
  | .owwbyte v => cmdWord 0x13 0 v
  | .owrbyte => cmdWord 0x14 0 0
  | .crcinit => cmdWord 0x20 0 0
  | .crcupd v => cmdWord 0x21 0 v
  | .crcchk v => cmdWord 0x22 0 v
  | .srchfirst => cmdWord 0x30 0 0
  | .srchnext => cmdWord 0x31 0 0
  | .srchverify => cmdWord 0x32 0 0
  | .idrd k => cmdWord 0x40 k 0
  | .idwr k v => cmdWord 0x41 k v
  | .strd sel => cmdWord 0x42 sel 0

/-- The mnemonic of a command, as R63 spells it. -/
def Instr.mnemonic : Instr → String
  | .init => "INIT"
  | .selch _ => "SELCH"
  | .waitconv => "WAITCONV"
  | .owreset => "OWRESET"
  | .owwbit _ => "OWWBIT"
  | .owrbit => "OWRBIT"
  | .owwbyte _ => "OWWBYTE"
  | .owrbyte => "OWRBYTE"
  | .crcinit => "CRCINIT"
  | .crcupd _ => "CRCUPD"
  | .crcchk _ => "CRCCHK"
  | .srchfirst => "SRCHFIRST"
  | .srchnext => "SRCHNEXT"
  | .srchverify => "SRCHVERIFY"
  | .idrd _ => "IDRD"
  | .idwr _ _ => "IDWR"
  | .strd _ => "STRD"

/-- One row of R63's opcode map: "a word `w` selects the row when `(w and mask) = match` and the row's extra
constraint, if any, holds". `maxA` is the bound of the extra constraint `a <= maxA`. -/
structure OpcodeRow where
  mnemonic : String
  pattern  : CmdWord
  mask     : CmdWord
  maxA     : Option Nat
deriving DecidableEq, Repr

/-- R63's rows with an operation of the line and bit/byte layers. -/
def opcodeRowsBus : List OpcodeRow :=
  [ ⟨"INIT",       0x010000, 0xFFFFFF, none⟩,
    ⟨"SELCH",      0x020000, 0xFF00FF, none⟩,
    ⟨"WAITCONV",   0x030000, 0xFFFFFF, none⟩,
    ⟨"OWRESET",    0x100000, 0xFFFFFF, none⟩,
    ⟨"OWWBIT",     0x110000, 0xFFFFFE, none⟩,
    ⟨"OWRBIT",     0x120000, 0xFFFFFF, none⟩,
    ⟨"OWWBYTE",    0x130000, 0xFFFF00, none⟩,
    ⟨"OWRBYTE",    0x140000, 0xFFFFFF, none⟩ ]

/-- R63's rows of the CRC8 engine, the search engine and the host access. -/
def opcodeRowsEngines : List OpcodeRow :=
  [ ⟨"CRCINIT",    0x200000, 0xFFFFFF, none⟩,
    ⟨"CRCUPD",     0x210000, 0xFFFF00, none⟩,
    ⟨"CRCCHK",     0x220000, 0xFFFF00, none⟩,
    ⟨"SRCHFIRST",  0x300000, 0xFFFFFF, none⟩,
    ⟨"SRCHNEXT",   0x310000, 0xFFFFFF, none⟩,
    ⟨"SRCHVERIFY", 0x320000, 0xFFFFFF, none⟩,
    ⟨"IDRD",       0x400000, 0xFFF8FF, none⟩,
    ⟨"IDWR",       0x410000, 0xFFF800, none⟩,
    ⟨"STRD",       0x420000, 0xFFF8FF, some 5⟩ ]

/-- The opcode map of R63. -/
def opcodeTable : List OpcodeRow := opcodeRowsBus ++ opcodeRowsEngines

/-- The word selects the row (R63). -/
def OpcodeRow.selects (row : OpcodeRow) (w : CmdWord) : Bool :=
  (w &&& row.mask == row.pattern) && (match row.maxA with | none => true | some m => decide ((aField w).toNat ≤ m))

/-- The command word of an instruction `nbits` long whose bits are `w`, the bits above `nbits` zero. -/
def tableWord (nbits w : Nat) : CmdWord := BitVec.ofNat 24 (w % 2 ^ nbits)

/-- The instruction the decoder reads from a word numbered as the opcode table numbers it. -/
def decodeTableWord (nbits w : Nat) : Option Instr := (decode (tableWord nbits w)).toOption

end Sys2Proof
end

