-- ==== Sys2Proof/Config.lean ====
section
/-! DEFINITION. The implementation parameters of spec/00_scope.md R6 and the free values of
spec/93_implementation_defined.md. A parameter the spec decides has its value; a parameter the spec leaves OPEN and
every value a draw gives is an opaque constant with no body, so that whatever is proved holds for every value of it. -/

namespace Sys2Proof

/-- The eight timing parameters, index 1 to 8 in this order (10_state.md R24). -/
inductive TimingIndex where
  | conv | resetTx | resetDelay | resetRx | writeLow | writeSlot | readSamp | readSlot
deriving DecidableEq, Repr

/-- One value for each timing parameter: the live constants `LT[1..8]` and the persisted `TT[1..8]` have this shape. -/
structure TimingTable (α : Type) where
  conv       : α
  resetTx    : α
  resetDelay : α
  resetRx    : α
  writeLow   : α
  writeSlot  : α
  readSamp   : α
  readSlot   : α
deriving DecidableEq, Repr

/-- The parameter `EXHAUST_POLICY`: what a search call does to `SearchState` when it finds `LDF` already set
(43_search.md R142). -/
inductive ExhaustPolicy where
  | sticky
  | reset
deriving DecidableEq, Repr, Inhabited

namespace Config

/-- `CH_BASE`: the first channel's number (00_scope.md R6, decision D4). -/
def chBase : Byte := 0

/-- `N_SAMPLES`: raw samples in one filtered sample (00_scope.md R6, decision D9). -/
def nSamples : Nat := 10

/-- `SAMPLE_THRESHOLD` of the majority filter (00_scope.md R6, decision D9). -/
def sampleThreshold : Nat := 5

/-- `T_UNIT`: the read slot's initial low pulse, 1 delay unit (00_scope.md R6). -/
def tUnit : Nat := 1

/-- `T_WIDTH`: the width of a live timing constant (00_scope.md R6, decision D11). -/
def tWidth : Nat := 32

/-- `CMD_SEARCH_ROM`: the broadcast search command byte (00_scope.md R6, 30_encoding.md R68, decision D14). -/
def cmdSearchRom : Byte := 0xF0

/-- The number of channels less one: OPEN, any of 0 to 255 (00_scope.md R6, decision D3). DESIGN CHOICE, log 3: a free
value. Safe. -/
opaque nChannelsPred : Fin 256

/-- `N_CHANNELS`: 1 to 256 (00_scope.md R6). The value the block has after reset; log 3. -/
def nChannels : Nat := nChannelsPred.val + 1

/-- `EXHAUST_POLICY`: OPEN (00_scope.md R6, decision D16). DESIGN CHOICE, log 3: a free value. Safe. -/
opaque exhaustPolicy : ExhaustPolicy

/-- `DELAY_CAL(i, v)`: "a total function the model assumes nothing of" (00_scope.md R6). Log 6: a free value. Safe. -/
opaque delayCal : TimingIndex → Nat → Nat

/-- What the Timing Configuration Store presents as `TT[i]` at a given draw, where the model's input list gives
nothing (00_scope.md R6, 40_line_and_delay.md R90). Log 6: a free value. Safe. -/
opaque storedTiming : Nat → TimingIndex → Nat

/-- `LT[i]` after hardware reset, at a given draw: "a draw made once at reset" (10_state.md R24, decision D13).
Log 4: a free value. Safe. -/
opaque resetTiming : Nat → TimingIndex → Duration

/-- The line environment's answer to one `LineIn(c)`, at a given draw, where the model's input list gives nothing
(40_line_and_delay.md R86, 93_implementation_defined.md I3). Log 5: a free value. Safe. -/
opaque lineLevel : Nat → Bool

end Config

end Sys2Proof
end

