-- ==== Sys2Proof/Machine/State.lean ====
section
/-! DEFINITION. The state of the machine: `Block` is the architectural state the spec gives the block
(spec/10_state.md), `State` adds the inputs and outputs of the block's step, which spec/10_state.md R34 keeps out of the
block's state and which a step that is one function of its state must find and leave somewhere (log 1). -/

namespace Sys2Proof.Machine

/-- `DIR[c]`: the direction of a line (R11). -/
inductive Dir where
  | inp
  | out
deriving DecidableEq, Repr

/-- `LVL[c]`: the output level of a line (R11). -/
inductive Level where
  | low
  | high
deriving DecidableEq, Repr

/-- The driver of one line (R11). -/
structure LineDriver where
  dir : Dir
  lvl : Level
deriving DecidableEq, Repr

/-- The driver after reset and after every operation: "`DIR[c] = in`, `LVL[c] = low`" (R11). -/
def LineDriver.released : LineDriver := ⟨.inp, .low⟩

/-- The registers of the block (10_state.md). -/
structure Block where
  /-- `CH`, the active channel (R10). -/
  ch     : Byte
  /-- `DIR[c]`, `LVL[c]` for `c = 0 .. N_CHANNELS-1` (R11): `N_CHANNELS` is the length. -/
  lines  : List LineDriver
  /-- `ID[0..7]`, the identity buffer (R13). -/
  id     : Ident
  /-- `LD`, `last_discrepancy` (R14). -/
  ld     : Byte
  /-- `LFD`, `last_family_discrepancy` (R15). -/
  lfd    : Byte
  /-- `LDF`, `last_device_flag` (R16). -/
  ldf    : Bool
  /-- `CRC_ACC`, the validator's accumulator (R20). -/
  crcAcc : Byte
  /-- `NZ`, some payload byte was nonzero (R21). -/
  nz     : Bool
  /-- `LT[1..8]`, the live timing constants (R24). -/
  lt     : TimingTable Duration
  /-- `CRIT`, the preemption inhibit output (R26). -/
  crit   : Bool
deriving DecidableEq, Repr

/-- The outcomes (60_exceptions.md R210). -/
inductive Status where
  | ok
  | noPresence
  | crcMismatch
  | searchExhausted
  | noResponse
  | zeroPayload
  | verifyMismatch
  | illegalCommand
deriving DecidableEq, Repr

/-- The response to a command: `STATUS` and `DATA` (30_encoding.md R62). -/
structure Response where
  status : Status
  data   : Byte
deriving DecidableEq, Repr

/-- The names of the waits (40_line_and_delay.md R87, 41_bit_byte.md R100, R102, R104). -/
inductive WaitName where
  | conv | resetTx | resetDelay | resetRx | writeLow | writeRest | readLow | readSamp | readRest
deriving DecidableEq, Repr

/-- A line event of `TRACE` (40_line_and_delay.md R88). -/
inductive LineEvent where
  /-- `LOW(c)`. -/
  | low (c : Byte)
  /-- `REL(c)`. -/
  | rel (c : Byte)
  /-- `WAIT(name, d)`. -/
  | wait (name : WaitName) (d : Nat)
  /-- `SAMP(c, r, v)`. -/
  | samp (c : Byte) (r : List Bool) (v : Bool)
  /-- `CRIT(1)`, `CRIT(0)`. -/
  | crit (level : Bool)
deriving DecidableEq, Repr

/-- What the world outside does at the block's boundary between two operations. -/
inductive HostInput where
  /-- The host presents a command word at the command port (30_encoding.md R60). -/
  | command (w : CmdWord)
  /-- The hardware reset event (70_reset_and_hazards.md R230). -/
  | hardwareReset
deriving DecidableEq, Repr

/-- The machine's state: the block, its one open parameter that is no register, its inputs and its outputs. -/
structure State where
  /-- The block's registers. -/
  blk       : Block
  /-- The parameter `EXHAUST_POLICY` (00_scope.md R6). Log 3. -/
  policy    : ExhaustPolicy
  /-- What the host does next, in order. Log 1. -/
  inputs    : List HostInput
  /-- The line environment's next raw samples, in order (40_line_and_delay.md R86). Log 5. -/
  samples   : List Bool
  /-- What the Timing Configuration Store presents at the next `INIT`s, in order (40_line_and_delay.md R90). Log 6. -/
  store     : List (TimingTable Nat)
  /-- How many free values have been drawn: the next one is the opaque Config constant at this number. Log 7. -/
  draws     : Nat
  /-- `TRACE`, oldest event first (40_line_and_delay.md R88). -/
  trace     : List LineEvent
  /-- The responses given so far, oldest first (30_encoding.md R62). Log 8. -/
  responses : List Response
deriving DecidableEq, Repr

/-- The reasons to stop with a fault: none. "none are fatal/process-terminating" (60_exceptions.md), and no state is
`stuck` (93_implementation_defined.md). -/
inductive Fault where
deriving DecidableEq, Repr

/-- The reasons to refuse. -/
inductive Refusal where
  /-- An instruction of the opcode table with no meaning yet. No arm of `exec` raises it: every command of the table
  has its meaning. Safe. -/
  | notModelled (mnemonic : String)
deriving DecidableEq, Repr

/-- The table of a function of the index (10_state.md R24). -/
def timingTableOf {α : Type} (f : TimingIndex → α) : TimingTable α :=
  ⟨f .conv, f .resetTx, f .resetDelay, f .resetRx, f .writeLow, f .writeSlot, f .readSamp, f .readSlot⟩

/-- The block's registers after hardware reset (70_reset_and_hazards.md R230): the values of 10_state.md R10 to R26,
with the draw `lt` for `LT[1..8]`. -/
def Block.afterReset (nChannels : Nat) (lt : TimingTable Duration) : Block :=
  { ch := Config.chBase
    lines := List.replicate nChannels LineDriver.released
    id := Vector.replicate 8 0
    ld := 0
    lfd := 0
    ldf := false
    crcAcc := 0
    nz := false
    lt := lt
    crit := false }

/-- The machine right after hardware reset (70_reset_and_hazards.md R230): no operation in progress, all lines
released, `TRACE` empty, no input given yet. The number of channels, the exhaustion policy and `LT[1..8]` are free
values (logs 3, 4). -/
def State.reset : State :=
  { blk := Block.afterReset Config.nChannels (timingTableOf (Config.resetTiming 0))
    policy := Config.exhaustPolicy
    inputs := []
    samples := []
    store := []
    draws := 1
    trace := []
    responses := [] }

end Sys2Proof.Machine
end

