-- ==== Sys2Proof/Machine/Bits.lean ====
section
/-! DEFINITION. Bit fields, the bit positions of an identity and byte cells of the identity buffer
(spec/20_memory.md R40, R42, R43). -/

namespace Sys2Proof.Machine

/-- `v[m]` (00_scope.md, notation). -/
def byteBit (v : Byte) (m : Nat) : Bool := v.getLsbD m

/-- `v[m] <- b`: "writes one bit and leaves the other seven" (00_scope.md, notation). -/
def setByteBit (v : Byte) (m : Nat) (b : Bool) : Byte :=
  if b then v ||| (1#8 <<< m) else v &&& ~~~(1#8 <<< m)

/-- The byte whose bit `i` is the `i`-th of the list, least-significant bit first (20_memory.md R43). -/
def byteOfBits : List Bool → Byte
  | [] => 0
  | b :: bs => (byteOfBits bs <<< 1) ||| (if b then 1 else 0)

/-- A bit zero-extended to a byte (30_encoding.md R62, 48_arithmetic_sequencing_access.md R206). -/
def bitToByte (b : Bool) : Byte := if b then 1 else 0

/-- The byte of an identity that holds bit position `n`: `(n - 1) div 8` (20_memory.md R42). -/
def positionByte (n : Nat) : Nat := (n - 1) / 8

/-- The bit of that byte: `(n - 1) mod 8` (20_memory.md R42). -/
def positionBit (n : Nat) : Nat := (n - 1) % 8

/-- Byte `k` of an identity. -/
def idByte (id : Ident) (k : Nat) : Byte := id[k]?.getD 0

/-- Byte `k` of an identity replaced. -/
def setIdByte (id : Ident) (k : Nat) (v : Byte) : Ident := id.setIfInBounds k v

/-- The bit at position `n` of an identity, `n` from 1 to 64 (20_memory.md R42). -/
def idBit (id : Ident) (n : Nat) : Bool := byteBit (idByte id (positionByte n)) (positionBit n)

/-- The bit at position `n` replaced, "leaving the other bits of that byte as they are" (43_search.md R146). -/
def setIdBit (id : Ident) (n : Nat) (b : Bool) : Ident :=
  setIdByte id (positionByte n) (setByteBit (idByte id (positionByte n)) (positionBit n) b)

/-- The sentinel "no device": "An identity with all-zero bytes" (10_state.md R13). -/
def zeroIdent : Ident := Vector.replicate 8 0

/-- `T_WIDTH` truncation, "keeping the low bits" (48_arithmetic_sequencing_access.md R203). -/
def truncateDuration (v : Nat) : Duration := BitVec.ofNat Config.tWidth v

end Sys2Proof.Machine
end

