-- ==== Sys2Proof/Machine/Flags.lean ====
section
/-! DEFINITION. Every one-bit decision of the block: the sample filter and the presence bit, the flags `NZ` and `LDF`,
the outcome codes and the verdicts (spec/40_line_and_delay.md R86, 41_bit_byte.md R100, 10_state.md R16 and R21,
60_exceptions.md R210 to R212). -/

namespace Sys2Proof.Machine

/-- The majority filter: 1 exactly when the number of high samples is greater than `SAMPLE_THRESHOLD`
(40_line_and_delay.md R86). At the tie it is 0, by the rule (log 9). -/
def majority (r : List Bool) : Bool := decide (Config.sampleThreshold < r.count true)

/-- Presence is detected when the filtered level is 0 (41_bit_byte.md R100). -/
def presence (v : Bool) : Bool := !v

/-- `NZ <- NZ or (v != 0)` (42_crc8.md R129). -/
def nzAfter (nz : Bool) (v : Byte) : Bool := nz || (v != 0)

/-- The code of an outcome (60_exceptions.md R210). -/
def Status.code : Status → Byte
  | .ok => 0x00
  | .noPresence => 0x01
  | .crcMismatch => 0x02
  | .searchExhausted => 0x03
  | .noResponse => 0x04
  | .zeroPayload => 0x05
  | .verifyMismatch => 0x06
  | .illegalCommand => 0xFF

/-- The response word `{STATUS[7:0], DATA[7:0]}` (30_encoding.md R62). -/
def Response.word (r : Response) : RespWord := r.status.code ++ r.data

/-- `OWRESET`'s response (41_bit_byte.md R101). -/
def resetResponse (p : Bool) : Response := if p then ⟨.ok, 1⟩ else ⟨.noPresence, 0⟩

/-- `CRCCHK`'s response, `CRC_MISMATCH` tested before `ZERO_PAYLOAD` (42_crc8.md R130, 60_exceptions.md R212). -/
def crcVerdict (acc : Byte) (nz : Bool) (v : Byte) : Response :=
  if acc ≠ v then ⟨.crcMismatch, 0⟩ else if nz = false then ⟨.zeroPayload, 0⟩ else ⟨.ok, 1⟩

/-- The response of a search: `STATUS = cause`, `DATA = found` (43_search.md R150, R152). -/
def searchResponse (found : Bool) (cause : Status) : Response := ⟨cause, bitToByte found⟩

/-- The response of `SRCHVERIFY` (43_search.md R153). -/
def verifyResponse (found : Bool) (cause : Status) (sameIdentity : Bool) : Response :=
  if found && sameIdentity then ⟨.ok, 1⟩ else if found then ⟨.verifyMismatch, 0⟩ else ⟨cause, 0⟩

end Sys2Proof.Machine
end

