-- ==== Sys2Proof/Machine/Operands.lean ====
section
/-! DEFINITION. The operand forms (spec/30_encoding.md R64): "taken from the fields unchanged: there is no sign
extension, no scaling and no shifting". An operand outside its range has no value: the command is illegal (R65). -/

namespace Sys2Proof.Machine

/-- A one-bit operand is `b[0]` and requires `b[7:1] = 0` (R64). -/
def bitOperand (b : Byte) : Option Bool :=
  if b = 0 then some false else if b = 1 then some true else none

/-- An identity-buffer index is `a` and requires `a <= 7` (R64). -/
def indexOperand (a : Byte) : Option Nat := if a.toNat ≤ 7 then some a.toNat else none

/-- A channel number is `a`, any value 0 to 255 (R64). -/
def channelOperand (a : Byte) : Nat := a.toNat

/-- A register select is `a` and requires `a <= 5`: the register it selects, zero-extended to 8 bits
(44_host_access.md R172). -/
def selectOperand (a : Byte) (r : Block) : Option Byte :=
  match a.toNat with
  | 0 => some r.ch
  | 1 => some r.ld
  | 2 => some r.lfd
  | 3 => some (bitToByte r.ldf)
  | 4 => some r.crcAcc
  | 5 => some (bitToByte r.nz)
  | _ => none

end Sys2Proof.Machine
end

