-- ==== Sys2Proof/Machine/Ops.lean ====
section
/-! DEFINITION. The named operations the commands share: the inputs (line samples, the store's presentation), the line
micro-operations and the bit and byte procedures (spec/40_line_and_delay.md R84 to R89, spec/41_bit_byte.md R100 to
R107), the identity-buffer accesses, the reset of `SearchState`, the hardware reset, and ending an operation with an
outcome (spec/60_exceptions.md R214). -/

namespace Sys2Proof.Machine

/-! ### Ending an operation -/

/-- End the operation with a response (30_encoding.md R62). "Nothing is saved, no mode changes, no vector is fetched,
control goes nowhere" (60_exceptions.md R214). -/
def respond (r : Response) (s : State) : State := { s with responses := s.responses ++ [r] }

/-- An illegal command "changes no register, causes no line event, and returns `STATUS = ILLEGAL_COMMAND (0xFF)`,
`DATA = 0x00`" (30_encoding.md R65). -/
def illegalCommand (s : State) : State := respond ⟨.illegalCommand, 0⟩ s

/-! ### `TRACE` -/

/-- Append an event to `TRACE` (40_line_and_delay.md R88). -/
def emit (e : LineEvent) (s : State) : State := { s with trace := s.trace ++ [e] }

/-! ### The driver of the active line -/

/-- `DIR[c] <- d` (10_state.md R11). -/
def setDir (c : Byte) (d : Dir) (b : Block) : Block :=
  { b with lines := b.lines.modify c.toNat (fun l => { l with dir := d }) }

/-- `LVL[c] <- v` (10_state.md R11). -/
def setLvl (c : Byte) (v : Level) (b : Block) : Block :=
  { b with lines := b.lines.modify c.toNat (fun l => { l with lvl := v }) }

/-- `DriveLow(c)`: `LVL[c] <- low`, then `DIR[c] <- out` (40_line_and_delay.md R84). -/
def driveLow (c : Byte) (s : State) : State :=
  emit (.low c) { s with blk := setDir c .out (setLvl c .low s.blk) }

/-- `Release(c)`: `DIR[c] <- in`, `LVL[c]` keeps its value (40_line_and_delay.md R85). -/
def release (c : Byte) (s : State) : State :=
  emit (.rel c) { s with blk := setDir c .inp s.blk }

/-- What the block drives line `c` to, `none` when it does not drive it (10_state.md R11). -/
def drives (b : Block) (c : Nat) : Option Level :=
  match b.lines[c]? with
  | none => none
  | some l => match l.dir with
    | .inp => none
    | .out => some l.lvl

/-! ### Delay -/

/-- `Delay(d)`: an event with a symbolic duration, no register changes (40_line_and_delay.md R87). -/
def delay (name : WaitName) (d : Nat) (s : State) : State := emit (.wait name d) s

/-- The rest of a write slot: `LT.write_slot -. LT.write_low` (41_bit_byte.md R102). -/
def writeRest (lt : TimingTable Duration) : Nat := lt.writeSlot.toNat - lt.writeLow.toNat

/-- The rest of a read slot: `LT.read_slot -. (T_UNIT + LT.read_samp)` (41_bit_byte.md R104). -/
def readRest (lt : TimingTable Duration) : Nat := lt.readSlot.toNat - (Config.tUnit + lt.readSamp.toNat)

/-! ### The line environment -/

/-- `LineIn(c)`: one raw sample, 1 = line high. "it is a draw, one bit per call, under no law of this spec"
(40_line_and_delay.md R86): the next of the environment's list, or, where the list has ended, a free value (log 5). -/
def lineIn (s : State) : Bool × State :=
  match s.samples with
  | b :: rest => (b, { s with samples := rest })
  | [] => (Config.lineLevel s.draws, { s with draws := s.draws + 1 })

/-- `n` raw samples, in order (40_line_and_delay.md R86). -/
def rawSamples : Nat → State → List Bool × State
  | 0, s => ([], s)
  | n + 1, s =>
    match lineIn s with
    | (b, s1) =>
      match rawSamples n s1 with
      | (bs, s2) => (b :: bs, s2)

/-- `Sample(c)`: one filtered sample (40_line_and_delay.md R86). -/
def sample (c : Byte) (s : State) : Bool × State :=
  match rawSamples Config.nSamples s with
  | (r, s1) => (majority r, emit (.samp c r (majority r)) s1)

/-! ### The preemption inhibit -/

/-- `CritEnter()` (40_line_and_delay.md R89). -/
def critEnter (s : State) : State := emit (.crit true) { s with blk := { s.blk with crit := true } }

/-- `CritExit()`: "sets the level to 0 whatever it was before" (40_line_and_delay.md R89). -/
def critExit (s : State) : State := emit (.crit false) { s with blk := { s.blk with crit := false } }

/-! ### Bit and byte procedures -/

/-- `BusReset()`, which returns the presence bit (41_bit_byte.md R100). -/
def busReset (s : State) : Bool × State :=
  let c := s.blk.ch
  let lt := s.blk.lt
  match sample c (delay .resetDelay lt.resetDelay.toNat (release c (delay .resetTx lt.resetTx.toNat (driveLow c s)))) with
  | (v, s1) => (presence v, delay .resetRx lt.resetRx.toNat s1)

/-- `WriteBit(b)` (41_bit_byte.md R102): a written 1 is released before the rest of the slot, a written 0 after it. -/
def writeBit (b : Bool) (s : State) : State :=
  let c := s.blk.ch
  let lt := s.blk.lt
  let s1 := delay .writeLow lt.writeLow.toNat (driveLow c s)
  if b then delay .writeRest (writeRest lt) (release c s1)
  else release c (delay .writeRest (writeRest lt) s1)

/-- `ReadBit()`, which returns the filtered level (41_bit_byte.md R104). -/
def readBit (s : State) : Bool × State :=
  let c := s.blk.ch
  let lt := s.blk.lt
  match sample c (delay .readSamp lt.readSamp.toNat (release c (delay .readLow Config.tUnit (driveLow c s)))) with
  | (v, s1) => (v, delay .readRest (readRest lt) s1)

/-- The write slots of a list of bits, in order. -/
def writeBits : List Bool → State → State
  | [], s => s
  | b :: bs, s => writeBits bs (writeBit b s)

/-- The bits of a byte in the order they travel, bit 0 first (20_memory.md R43). -/
def wireBits (v : Byte) : List Bool := (List.range 8).map (byteBit v)

/-- `n` read slots, in order. -/
def readBits : Nat → State → List Bool × State
  | 0, s => ([], s)
  | n + 1, s =>
    match readBit s with
    | (b, s1) =>
      match readBits n s1 with
      | (bs, s2) => (b :: bs, s2)

/-- `WriteByte(v)`: slot `i` carries bit `i` of `v`, inside the preemption bracket (41_bit_byte.md R106). -/
def writeByte (v : Byte) (s : State) : State := critExit (writeBits (wireBits v) (critEnter s))

/-- `ReadByte()`: slot `i` gives bit `i` of the result, inside the preemption bracket (41_bit_byte.md R107). -/
def readByte (s : State) : Byte × State :=
  match readBits 8 (critEnter s) with
  | (bs, s1) => (byteOfBits bs, critExit s1)

/-! ### The identity buffer -/

/-- `MemRead(k, 1) = ID[k]` (00_scope.md, notation; 20_memory.md R40). -/
def memRead (b : Block) (k : Nat) : Byte := idByte b.id k

/-- `MemWrite(k, 1, v)` is `ID[k] <- v` (00_scope.md, notation; 20_memory.md R40). -/
def memWrite (k : Nat) (v : Byte) (b : Block) : Block := { b with id := setIdByte b.id k v }

/-! ### `SearchState` -/

/-- `SearchState`: `LD`, `LFD`, `LDF` and `ID[0..7]` (10_state.md R13 to R17). -/
structure SearchState where
  ld  : Byte
  lfd : Byte
  ldf : Bool
  id  : Ident
deriving DecidableEq, Repr

/-- The search cursor the block holds. -/
def searchState (b : Block) : SearchState := ⟨b.ld, b.lfd, b.ldf, b.id⟩

/-- The search cursor replaced. -/
def setSearchState (c : SearchState) (b : Block) : Block :=
  { b with ld := c.ld, lfd := c.lfd, ldf := c.ldf, id := c.id }

/-- "Reset of `SearchState` to initial values": `LD`, `LFD`, `LDF` and `ID[0..7]` to 0 (10_state.md R17). -/
def resetSearch (s : State) : State := { s with blk := setSearchState ⟨0, 0, false, zeroIdent⟩ s.blk }

/-! ### The Timing Configuration Store -/

/-- What the store presents as `TT[1..8]` "at this moment" (40_line_and_delay.md R90): the next of the input list, or,
where the list has ended, free values (log 6). -/
def presentedTiming (s : State) : TimingTable Nat × State :=
  match s.store with
  | t :: rest => (t, { s with store := rest })
  | [] => (timingTableOf (Config.storedTiming s.draws), { s with draws := s.draws + 1 })

/-- The entry of a timing table at an index (10_state.md R24). -/
def timingAt {α : Type} (t : TimingTable α) : TimingIndex → α
  | .conv => t.conv
  | .resetTx => t.resetTx
  | .resetDelay => t.resetDelay
  | .resetRx => t.resetRx
  | .writeLow => t.writeLow
  | .writeSlot => t.writeSlot
  | .readSamp => t.readSamp
  | .readSlot => t.readSlot

/-- `LT[i] <- DELAY_CAL(i, TT[i])` for all eight, truncated to `T_WIDTH` bits (40_line_and_delay.md R90). -/
def liveTiming (cal : TimingIndex → Nat → Nat) (tt : TimingTable Nat) : TimingTable Duration :=
  timingTableOf (fun i => truncateDuration (cal i (timingAt tt i)))

/-! ### Hardware reset and the command port -/

/-- The hardware reset event: every register to its reset value, `TRACE` empty (70_reset_and_hazards.md R230). The
number of lines, the parameter, the inputs still to come and the responses already given are not the block's registers;
`LT[1..8]` are drawn anew (logs 2, 4). -/
def hardwareReset (s : State) : State :=
  { s with
    blk := Block.afterReset s.blk.lines.length (timingTableOf (Config.resetTiming s.draws))
    draws := s.draws + 1
    trace := [] }

/-- What the command port holds at a step: nothing, the reset event, or a command word, with the state in which it has
been taken. -/
inductive PortEvent where
  | idle
  | reset (s : State)
  | command (w : CmdWord) (s : State)
deriving DecidableEq, Repr

/-- Take the next input (30_encoding.md R60). -/
def fetch (s : State) : PortEvent :=
  match s.inputs with
  | [] => .idle
  | .hardwareReset :: rest => .reset { s with inputs := rest }
  | .command w :: rest => .command w { s with inputs := rest }

/-- The state in which the host presents the word next, before anything else it does. -/
def presentCommand (w : CmdWord) (s : State) : State := { s with inputs := .command w :: s.inputs }

end Sys2Proof.Machine
end

