-- ==== Sys2Proof/Machine/BitByte.lean ====
section
/-! DEFINITION. The commands of the bit and byte layer (spec/41_bit_byte.md): `OWRESET`, `OWWBIT`, `OWRBIT`, `OWWBYTE`,
`OWRBYTE`. -/

namespace Sys2Proof.Machine

/-- `OWRESET`: `OK/01` when a presence pulse was detected, `NO_PRESENCE/00` when not (R101). -/
def execOwreset (s : State) : Host.Outcome State Fault Refusal :=
  match busReset s with
  | (p, s1) => .next (respond (resetResponse p) s1)

/-- `OWWBIT x` (R103); with `b[7:1] != 0` it is illegal (30_encoding.md R65). -/
def execOwwbit (x : Byte) (s : State) : Host.Outcome State Fault Refusal :=
  match bitOperand x with
  | some b => .next (respond ⟨.ok, 0⟩ (writeBit b s))
  | none => .next (illegalCommand s)

/-- `OWRBIT`: `DATA` is the bit (R105). -/
def execOwrbit (s : State) : Host.Outcome State Fault Refusal :=
  match readBit s with
  | (v, s1) => .next (respond ⟨.ok, bitToByte v⟩ s1)

/-- `OWWBYTE v` (R110). -/
def execOwwbyte (v : Byte) (s : State) : Host.Outcome State Fault Refusal :=
  .next (respond ⟨.ok, 0⟩ (writeByte v s))

/-- `OWRBYTE`: `DATA` is the byte (R111). -/
def execOwrbyte (s : State) : Host.Outcome State Fault Refusal :=
  match readByte s with
  | (v, s1) => .next (respond ⟨.ok, v⟩ s1)

end Sys2Proof.Machine
end

