-- ==== Sys2Proof/Machine/HostAccess.lean ====
section
/-! DEFINITION. The host register access commands (spec/44_host_access.md): `IDRD`, `IDWR`, `STRD`. -/

namespace Sys2Proof.Machine

/-- `IDRD k`: `DATA` is `ID[k]` (R170); with `k > 7` it is illegal (20_memory.md R45). -/
def execIdrd (k : Byte) (s : State) : Host.Outcome State Fault Refusal :=
  match indexOperand k with
  | some i => .next (respond ⟨.ok, memRead s.blk i⟩ s)
  | none => .next (illegalCommand s)

/-- `IDWR k, v`: `ID[k] <- v` only (R171); with `k > 7` it is illegal (20_memory.md R45). -/
def execIdwr (k v : Byte) (s : State) : Host.Outcome State Fault Refusal :=
  match indexOperand k with
  | some i => .next (respond ⟨.ok, 0⟩ { s with blk := memWrite i v s.blk })
  | none => .next (illegalCommand s)

/-- `STRD s`: `DATA` is the selected register (R172); with `s > 5` it is illegal (30_encoding.md R65). -/
def execStrd (sel : Byte) (s : State) : Host.Outcome State Fault Refusal :=
  match selectOperand sel s.blk with
  | some v => .next (respond ⟨.ok, v⟩ s)
  | none => .next (illegalCommand s)

end Sys2Proof.Machine
end

