-- ==== Sys2Proof/Machine/LineControl.lean ====
section
/-! DEFINITION. The commands of the line control and delay layer (spec/40_line_and_delay.md, section 1): `INIT`,
`SELCH`, `WAITCONV`. -/

namespace Sys2Proof.Machine

/-- `INIT`: all eight live constants, nothing else (R90). -/
def execInit (s : State) : Host.Outcome State Fault Refusal :=
  match presentedTiming s with
  | (tt, s1) => .next (respond ⟨.ok, 0⟩ { s1 with blk := { s1.blk with lt := liveTiming Config.delayCal tt } })

/-- `CH <- n` when `n < N_CHANNELS` (R82). -/
def selectChannel (n : Byte) (b : Block) : Block :=
  if channelOperand n < b.lines.length then { b with ch := n } else b

/-- `SELCH n`: always `OK`, `DATA` is `CH` after the operation (R82). -/
def execSelch (n : Byte) (s : State) : Host.Outcome State Fault Refusal :=
  let b := selectChannel n s.blk
  .next (respond ⟨.ok, b.ch⟩ { s with blk := b })

/-- `WAITCONV`: one `WAIT(conv, LT.conv)` (R91). -/
def execWaitconv (s : State) : Host.Outcome State Fault Refusal :=
  .next (respond ⟨.ok, 0⟩ (delay .conv s.blk.lt.conv.toNat s))

end Sys2Proof.Machine
end

