-- ==== Sys2Proof/Machine/Search.lean ====
section
/-! DEFINITION. The device search engine (spec/43_search.md): the traversal of R141 and the commands `SRCHFIRST`,
`SRCHNEXT`, `SRCHVERIFY`. Line numbers are those of R141's listing. -/

namespace Sys2Proof.Machine

/-- The transient state of `Traverse()` (10_state.md R31 to R33): it does not survive the operation. -/
structure Traversal where
  /-- The bit position, 1 to 65. -/
  n        : Nat
  /-- `last_zero`, 0 to 64. -/
  lastZero : Nat
  /-- `s_crc`, the running CRC8. -/
  sCrc     : Byte
  /-- The abort mark. -/
  abort    : Bool
deriving DecidableEq, Repr

/-- Line 8. -/
def traversalStart : Traversal := ⟨1, 0, 0, false⟩

/-- Lines 15 to 20: the direction at position `n`, from the bit and its complement, `LD` and the identity buffer. -/
def searchDirection (ld : Byte) (id : Ident) (n : Nat) (idb cmp : Bool) : Bool :=
  if idb != cmp then idb
  else if n < ld.toNat then idBit id n
  else decide (n = ld.toNat)

/-- Lines 17, 21: a discrepancy (both bits 0) at which the direction taken is 0. -/
def takesZero (idb cmp dir : Bool) : Bool := !idb && !cmp && !dir

/-- Lines 22 to 26 and 27 for the transient state and `LFD`, line 24 for `ID`: record the direction taken at the
position. -/
def recordDirection (idb cmp dir : Bool) (t : Traversal) (b : Block) : Traversal × Block :=
  let zero := takesZero idb cmp dir
  let id := setIdBit b.id t.n dir
  ({ t with
      n := t.n + 1
      lastZero := if zero then t.n else t.lastZero
      sCrc := if positionBit t.n = 7 then crc8Update t.sCrc (idByte id (positionByte t.n)) else t.sCrc },
   { b with
      id := id
      lfd := if zero && decide (t.n < 9) then BitVec.ofNat 8 t.n else b.lfd })

/-- The body of the loop, lines 10 to 27: two read slots, then, unless both bits are 1, one write slot. -/
def searchPosition (t : Traversal) (s : State) : Traversal × State :=
  match readBit s with
  | (idb, s1) =>
    match readBit s1 with
    | (cmp, s2) =>
      if idb && cmp then ({ t with abort := true }, s2)
      else
        let dir := searchDirection s2.blk.ld s2.blk.id t.n idb cmp
        match recordDirection idb cmp dir t s2.blk with
        | (t', b) => (t', writeBit dir { s2 with blk := b })

/-- The loop, lines 9 to 27, for at most the given number of positions. -/
def searchLoop : Nat → Traversal → State → Traversal × State
  | 0, t, s => (t, s)
  | k + 1, t, s =>
    match searchPosition t s with
    | (t', s') => if t'.abort then (t', s') else searchLoop k t' s'

/-- Lines 32 and 33: `LD <- last_zero`, and `LDF <- 1` when no further branch remains (R148). -/
def advanceCursor (lastZero : Nat) (b : Block) : Block :=
  { b with ld := BitVec.ofNat 8 lastZero, ldf := if lastZero = 0 then true else b.ldf }

/-- Lines 28 to 36: which outcome, and what becomes of `SearchState` (R148, R149). -/
def searchVerdict (t : Traversal) (s : State) : (Bool × Status) × State :=
  if t.abort then ((false, .noResponse), resetSearch s)
  else if t.sCrc ≠ 0 then ((false, .crcMismatch), resetSearch s)
  else
    let s1 := { s with blk := advanceCursor t.lastZero s.blk }
    if s1.blk.id = zeroIdent then ((false, .zeroPayload), resetSearch s1)
    else ((true, .ok), s1)

/-- Lines 2 and 3: what the call that reports exhaustion does to `SearchState` (R142). -/
def afterExhaustion (s : State) : State :=
  match s.policy with
  | .sticky => s
  | .reset => resetSearch s

/-- `Traverse()`: `(found, cause)` and the state after it (R141). -/
def searchTraverse (s : State) : (Bool × Status) × State :=
  if s.blk.ldf then ((false, .searchExhausted), afterExhaustion s)
  else
    match busReset s with
    | (false, s1) => ((false, .noPresence), resetSearch s1)
    | (true, s1) =>
      match searchLoop 64 traversalStart (writeByte Config.cmdSearchRom s1) with
      | (t, s2) => searchVerdict t s2

/-- `SRCHFIRST`: reset `SearchState`, then traverse (R150). -/
def execSrchfirst (s : State) : Host.Outcome State Fault Refusal :=
  match searchTraverse (resetSearch s) with
  | ((found, cause), s1) => .next (respond (searchResponse found cause) s1)

/-- `SRCHNEXT`: traverse (R152). -/
def execSrchnext (s : State) : Host.Outcome State Fault Refusal :=
  match searchTraverse s with
  | ((found, cause), s1) => .next (respond (searchResponse found cause) s1)

/-- `SRCHVERIFY` before its traversal: `LD <- 64`, `LDF <- 0` (R153). -/
def forceReplay (s : State) : State := { s with blk := { s.blk with ld := 64, ldf := false } }

/-- `SRCHVERIFY`: traverse with `LD = 64`, compare, restore `SearchState` on every path (R153). -/
def execSrchverify (s : State) : Host.Outcome State Fault Refusal :=
  match searchTraverse (forceReplay s) with
  | ((found, cause), s1) =>
    .next (respond (verifyResponse found cause (s1.blk.id == s.blk.id))
      { s1 with blk := setSearchState (searchState s.blk) s1.blk })

end Sys2Proof.Machine
end

