-- ==== Sys2Proof/Machine/Validator.lean ====
section
/-! DEFINITION. The commands of the CRC8 engine (spec/42_crc8.md, section 3): `CRCINIT`, `CRCUPD`, `CRCCHK`. -/

namespace Sys2Proof.Machine

/-- `CRCINIT`: `CRC_ACC <- 0`, `NZ <- 0` (R128). -/
def execCrcinit (s : State) : Host.Outcome State Fault Refusal :=
  .next (respond ⟨.ok, 0⟩ { s with blk := { s.blk with crcAcc := 0, nz := false } })

/-- `CRCUPD v`: fold one payload byte; `DATA` is the new accumulator (R129). -/
def execCrcupd (v : Byte) (s : State) : Host.Outcome State Fault Refusal :=
  let acc := crc8Update s.blk.crcAcc v
  .next (respond ⟨.ok, acc⟩ { s with blk := { s.blk with crcAcc := acc, nz := nzAfter s.blk.nz v } })

/-- `CRCCHK v`: the verdict; no register is written (R130). -/
def execCrcchk (v : Byte) (s : State) : Host.Outcome State Fault Refusal :=
  .next (respond (crcVerdict s.blk.crcAcc s.blk.nz v) s)

end Sys2Proof.Machine
end

