-- ==== Sys2Proof/Machine/Dispatch.lean ====
section
/-! DEFINITION. The dispatch: one arm per command of spec/opcode_table.json, each one call of its meaning. -/

namespace Sys2Proof.Machine

def exec (i : Instr) (s : State) : Host.Outcome State Fault Refusal :=
  match i with
  | .init => Sys2Proof.Machine.execInit s
  | .selch n => Sys2Proof.Machine.execSelch n s
  | .waitconv => Sys2Proof.Machine.execWaitconv s
  | .owreset => Sys2Proof.Machine.execOwreset s
  | .owwbit x => Sys2Proof.Machine.execOwwbit x s
  | .owrbit => Sys2Proof.Machine.execOwrbit s
  | .owwbyte v => Sys2Proof.Machine.execOwwbyte v s
  | .owrbyte => Sys2Proof.Machine.execOwrbyte s
  | .crcinit => Sys2Proof.Machine.execCrcinit s
  | .crcupd v => Sys2Proof.Machine.execCrcupd v s
  | .crcchk v => Sys2Proof.Machine.execCrcchk v s
  | .srchfirst => Sys2Proof.Machine.execSrchfirst s
  | .srchnext => Sys2Proof.Machine.execSrchnext s
  | .srchverify => Sys2Proof.Machine.execSrchverify s
  | .idrd k => Sys2Proof.Machine.execIdrd k s
  | .idwr k v => Sys2Proof.Machine.execIdwr k v s
  | .strd sel => Sys2Proof.Machine.execStrd sel s

end Sys2Proof.Machine
end

