-- ==== Sys2Proof/Machine/Step.lean ====
section
/-! DEFINITION. The step: one input of the host (spec/30_encoding.md R60: "A model takes one host-level step per
command"). -/

namespace Sys2Proof.Machine

/-- One step. With no input the block waits at its command port and nothing changes: "nothing in the block advances
from one command to the next" (10_state.md R30). A word that selects no row of the opcode map answers
`ILLEGAL_COMMAND` (30_encoding.md R65). -/
def step (s : State) : Host.Outcome State Fault Refusal :=
  match fetch s with
  | .idle => .next s
  | .reset s1 => .next (hardwareReset s1)
  | .command w s1 =>
    match decode w with
    | .ok i => exec i s1
    | .error _ => .next (illegalCommand s1)

/-- The state with the instruction presented at the command port next: "the host supplies each command word"
(10_state.md R30), so a program comes to run by being presented, word by word (log 1). -/
def State.withFetchWord (s : State) (nbits w : Nat) : State := presentCommand (tableWord nbits w) s

end Sys2Proof.Machine
end

