-- ==== Sys2Proof/Machine/Assembler.lean ====
section
/-! DEFINITION. The assembler notation and the pseudo-instructions (spec/30_encoding.md R66, R67). Neither is a command
of the block: a line of text is another writing of a command word, a pseudo-instruction stands for a sequence of
commands. -/

namespace Sys2Proof.Machine

/-- One hexadecimal digit. -/
def hexDigit (n : Nat) : Char :=
  ['0', '1', '2', '3', '4', '5', '6', '7', '8', '9', 'A', 'B', 'C', 'D', 'E', 'F'].getD n '?'

/-- A byte as two hexadecimal digits. -/
def hexByte (v : Byte) : String := String.ofList [hexDigit (v.toNat / 16), hexDigit (v.toNat % 16)]

/-- "The encoding of a line is the 24-bit word of rule R61 written as six hexadecimal digits" (R66). -/
def hexWord (w : CmdWord) : String := hexByte (opField w) ++ hexByte (aField w) ++ hexByte (bField w)

/-- An operand in `0x` hexadecimal (R66). -/
def hexOperand (v : Byte) : String := "0x" ++ hexByte v

/-- The operands of a command as the line writes them (R66). -/
def operandText : Instr → List String
  | .selch n => [hexOperand n]
  | .owwbit x => [hexOperand x]
  | .owwbyte v => [hexOperand v]
  | .crcupd v => [hexOperand v]
  | .crcchk v => [hexOperand v]
  | .idrd k => [hexOperand k]
  | .idwr k v => [hexOperand k, hexOperand v]
  | .strd sel => [hexOperand sel]
  | .init | .waitconv | .owreset | .owrbit | .owrbyte | .crcinit | .srchfirst | .srchnext | .srchverify => []

/-- `MNEMONIC operand, operand` (R66). -/
def assemblyLine (i : Instr) : String :=
  match operandText i with
  | [] => i.mnemonic
  | ops => i.mnemonic ++ " " ++ String.intercalate ", " ops

/-- The name of an outcome (60_exceptions.md R210). -/
def Status.name : Status → String
  | .ok => "OK"
  | .noPresence => "NO_PRESENCE"
  | .crcMismatch => "CRC_MISMATCH"
  | .searchExhausted => "SEARCH_EXHAUSTED"
  | .noResponse => "NO_RESPONSE"
  | .zeroPayload => "ZERO_PAYLOAD"
  | .verifyMismatch => "VERIFY_MISMATCH"
  | .illegalCommand => "ILLEGAL_COMMAND"

/-- `STATUS/DATA` (R66). -/
def responseText (r : Response) : String := r.status.name ++ "/" ++ hexByte r.data

/-- The pseudo-instructions of R67. `VALIDATE b0..b(n-1)` needs `n >= 1`, so its last byte is an argument of its own. -/
inductive Pseudo where
  | resetch (c : Byte)
  | findfirst (c : Byte)
  | findnext (c : Byte)
  | getid
  | setid (d : Ident)
  | verify (d : Ident)
  | validate (payload : List Byte) (check : Byte)
  | wrbytes (bytes : List Byte)
  | rdbytes (m : Nat)
deriving DecidableEq, Repr

/-- `IDWR 0, d0 ; ... ; IDWR 7, d7` (R67). -/
def setIdProgram (d : Ident) : List Instr :=
  (List.range 8).map (fun k => .idwr (BitVec.ofNat 8 k) (idByte d k))

/-- `IDRD 0 ; ... ; IDRD 7` (R67). -/
def getIdProgram : List Instr := (List.range 8).map (fun k => .idrd (BitVec.ofNat 8 k))

/-- `CRCINIT ; CRCUPD b0 ; ... ; CRCUPD b(n-2) ; CRCCHK b(n-1)` (R67). -/
def validateProgram (payload : List Byte) (check : Byte) : List Instr :=
  .crcinit :: payload.map .crcupd ++ [.crcchk check]

/-- "Each stands for the sequence shown, executed as separate commands" (R67). -/
def expand : Pseudo → List Instr
  | .resetch c => [.selch c, .owreset]
  | .findfirst c => [.selch c, .srchfirst]
  | .findnext c => [.selch c, .srchnext]
  | .getid => getIdProgram
  | .setid d => setIdProgram d
  | .verify d => setIdProgram d ++ [.srchverify]
  | .validate payload check => validateProgram payload check
  | .wrbytes bytes => bytes.map .owwbyte
  | .rdbytes m => List.replicate m .owrbyte

/-- A program as the host presents it: its command words, one after another (R60). -/
def programInputs (p : List Instr) : List HostInput := p.map (fun i => .command (encode i))

end Sys2Proof.Machine
end

