-- ==== Sys2Proof/Machine/Devices.lean ====
section
/-! DEFINITION. What the block sees on a line with devices (spec/43_search.md R140: "the line carries the wired AND of
what they send") in the noise-free reference environment of spec/95_test_vectors.md, section 2. It is no part of the
block: claims that need well-behaved devices take it as a premise (93_implementation_defined.md I3, log 11). -/

namespace Sys2Proof.Machine

/-- The device has answered the same bits as the path at every position before `n`, so it is still in contention:
the written direction bit "steers non-matching devices into backing off" (R140). -/
def contends (path : Ident) (n : Nat) (d : Ident) : Bool :=
  (List.range' 1 (n - 1)).all (fun m => idBit d m == idBit path m)

/-- The two levels the master reads at position `n` when it has written the path's directions before it: the wired AND
of the contending devices' bits, and of their complements (R140). -/
def wiredPair (devices : List Ident) (path : Ident) (n : Nat) : Bool × Bool :=
  let answering := devices.filter (contends path n)
  (answering.all (fun d => idBit d n), answering.all (fun d => !idBit d n))

/-- The filtered levels of one whole search call along a path: the presence sample, low when there is a device, then
two read slots for each of the 64 positions (R141; 95_test_vectors.md, section 2). -/
def searchLevels (devices : List Ident) (path : Ident) : List Bool :=
  devices.isEmpty ::
    (List.range' 1 64).flatMap (fun n => [(wiredPair devices path n).1, (wiredPair devices path n).2])

/-- Noise-free samples: all raw samples of one filtered sample are equal to the level (95_test_vectors.md, section 0). -/
def noiseFree (levels : List Bool) : List Bool := levels.flatMap (List.replicate Config.nSamples)

/-- The order in which a search reports devices: identities "compared in position order (position 1 most significant)"
(43_search.md R150). -/
def precedes (a b : Ident) : Prop :=
  ∃ n, 1 ≤ n ∧ n ≤ 64 ∧ (∀ m, m < n → 1 ≤ m → idBit a m = idBit b m) ∧ idBit a n = false ∧ idBit b n = true

/-- A device's identity: its CRC8 is right and it is not the sentinel (10_state.md R13, 43_search.md R154). -/
def validIdent (d : Ident) : Prop := crc8 d.toList = 0 ∧ d ≠ zeroIdent

end Sys2Proof.Machine
end

