-- ==== Sys2Proof/Machine/Surrounding.lean ====
section
/-! DEFINITION. The surrounding software's contract (spec/49_surrounding_software.md), in terms of the block's commands.
"Nothing in that file is state or behaviour of the block" (00_scope.md R4): nothing here is called by the step. What
the source leaves without a formula answers `none`, "rather than silently guessing a result" (R188, log 12). -/

namespace Sys2Proof.Machine

/-! ### Device registry -/

/-- The persisted identity table `[channel][slot]` (R180, 20_memory.md R48). -/
abbrev Registry := List (List Ident)

/-- `load(channel, slot)`: the persisted 8 bytes when the CRC8/nonzero-payload check holds, else `None` (R181).
DESIGN CHOICE: a channel or slot outside the table, of which the spec says nothing, loads as none (log 13). -/
def registryLoad (t : Registry) (channel slot : Nat) : Option Ident :=
  match t[channel]? with
  | none => none
  | some slots => match slots[slot]? with
    | none => none
    | some d => if validate d.toList = some true then some d else none

/-- `save(channel, slot, identity)`: writes 8 bytes (R182). DESIGN CHOICE: outside the table it changes nothing
(log 13). -/
def registrySave (t : Registry) (channel slot : Nat) (d : Ident) : Registry :=
  t.modify channel (fun slots => slots.set slot d)

/-- `save_identity(channel, slot, identity?)`: "persists current or supplied identity"; the current one is the block's
`ID[0..7]` (R182). -/
def saveIdentity (t : Registry) (channel slot : Nat) (identity : Option Ident) (b : Block) : Registry :=
  registrySave t channel slot (identity.getD b.id)

/-- `clear(channel)`: "overwrites every slot for a channel with the sentinel pattern" (R183). DESIGN CHOICE: a channel
outside the table changes nothing (log 13). -/
def registryClear (t : Registry) (channel : Nat) : Registry :=
  t.modify channel (fun slots => slots.map (fun _ => zeroIdent))

/-! ### Scratchpad transaction -/

/-- `CMD_SKIP_ROM` (R184). -/
def cmdSkipRom : Byte := 0xCC
/-- `CMD_MATCH_ROM` (R184). -/
def cmdMatchRom : Byte := 0x55
/-- `CMD_CONVERT` (R184). -/
def cmdConvert : Byte := 0x44
/-- `CMD_READ_SCRATCHPAD` (R184). -/
def cmdReadScratchpad : Byte := 0xBE

/-- `CMD_RECALL_PAGE`, followed by the page index (R184). -/
def cmdRecallPage : Byte := 0xB8
/-- `CMD_WRITE_SCRATCHPAD`, followed by the page index (R184). -/
def cmdWriteScratchpad : Byte := 0x4E
/-- `CMD_COPY_SCRATCHPAD`, followed by the page index (R184). -/
def cmdCopyScratchpad : Byte := 0x48

/-- The page recall for family 38: the command and the page index (R184, R189). The rest of the page protocol is not
described (R191). -/
def recallPage (page : Byte) : List Instr := [.owwbyte cmdRecallPage, .owwbyte page]

/-- Device selection: "skip ROM", or "match ROM" and the 8 identity bytes, byte 0 first (R184, R185). -/
def selectDevice : Option Ident → List Instr
  | none => [.owwbyte cmdSkipRom]
  | some d => .owwbyte cmdMatchRom :: d.toList.map .owwbyte

/-- The measurement transaction up to its second reset (R185). The host stops at a `NO_PRESENCE`. -/
def convertProgram (device : Option Ident) : List Instr :=
  .owreset :: selectDevice device ++ [.owwbyte cmdConvert, .waitconv]

/-- The measurement transaction from its second reset: nine scratchpad bytes (R185). -/
def readScratchpadProgram (device : Option Ident) : List Instr :=
  .owreset :: selectDevice device ++ .owwbyte cmdReadScratchpad :: List.replicate 9 .owrbyte

/-! ### Temperature decoding -/

/-- The supported families, by the identity's byte 0: 16, 40, 38 (R186). -/
inductive Family where
  | legacy
  | twelveBit
  | registerReadout
deriving DecidableEq, Repr

/-- "Decoding is dispatched by the identity's family code"; any other code is `UnsupportedFamily`, here `none`
(R186, R190). -/
def familyOf (d : Ident) : Option Family :=
  match (idByte d 0).toNat with
  | 16 => some .legacy
  | 40 => some .twelveBit
  | 38 => some .registerReadout
  | _ => none

/-- The raw pair `{s1, s0}`: byte 0 is the low byte (R186, 20_memory.md R44). -/
def rawPair (s0 s1 : Byte) : BitVec 16 := s1 ++ s0

/-- 12-bit format: signed degrees, and the fraction in units of 1/10000 degree (R187). -/
def decodeTwelveBit (s0 s1 : Byte) : Int × Nat :=
  ((rawPair s0 s1).toInt / 16, (rawPair s0 s1).toNat % 16 * 625)

/-- Legacy format, the one documented formula: in the negative range (`s1 = 0xFF`) the fraction is
`remainder * 625 - 7500` (R188). Every other input is undescribed. -/
def legacyFraction (s1 remainder : Byte) : Option Int :=
  if s1 = 0xFF then some ((remainder.toNat : Int) * 625 - 7500) else none

/-- `read_temperature`'s decode: only the 12-bit format has a whole formula (R187 to R190). -/
def decodeTemperature (d : Ident) (s0 s1 : Byte) : Option (Int × Nat) :=
  match familyOf d with
  | some .twelveBit => some (decodeTwelveBit s0 s1)
  | _ => none

/-! ### Timing configuration store -/

/-- The timing parameter with an index of 1 to 8 (10_state.md R24). -/
def timingIndex : Nat → Option TimingIndex
  | 1 => some .conv
  | 2 => some .resetTx
  | 3 => some .resetDelay
  | 4 => some .resetRx
  | 5 => some .writeLow
  | 6 => some .writeSlot
  | 7 => some .readSamp
  | 8 => some .readSlot
  | _ => none

/-- `set_parameter(i, v)`: writes one persisted field, "then forces the Bit/Byte layer to reload all 8": the new table
and the command to issue (R192). An index outside 1 to 8 is undescribed. -/
def setParameter (i v : Nat) (t : TimingTable Nat) : Option (TimingTable Nat × List Instr) :=
  (timingIndex i).map fun x =>
    (timingTableOf (fun y => if y = x then v else timingAt t y), [.init])

end Sys2Proof.Machine
end

