-- ==== Sys2Proof/Safety.lean ====
section
/-! DEFINITION. The terms the claims use: the legal states between commands, the line events of each slot, the raw
samples an operation takes, and the closed form of a completed search. -/

namespace Sys2Proof.Machine

/-- A state in which no operation is in progress, as the rules leave it. -/
structure Inv (s : State) : Prop where
  /-- `1 <= N_CHANNELS <= 256` (00_scope.md R6). -/
  channels : 1 ≤ s.blk.lines.length ∧ s.blk.lines.length ≤ 256
  /-- "`CH < N_CHANNELS` always" (10_state.md R10). -/
  active   : s.blk.ch.toNat < s.blk.lines.length
  /-- "`DIR[c] = in` holds for every `c`" (10_state.md R12), and "No operation of the block ever makes
  `LVL[c] = high`" (R11). -/
  released : ∀ l ∈ s.blk.lines, l = LineDriver.released
  /-- `CRIT` "is 0 whenever no operation is in progress" (10_state.md R26). -/
  critLow  : s.blk.crit = false
  /-- "the rules only ever put 0 to 64 in" `LD` (10_state.md R14). -/
  ldRange  : s.blk.ld.toNat ≤ 64
  /-- `LFD` has "values 0 to 8" (10_state.md R15). -/
  lfdRange : s.blk.lfd.toNat ≤ 8
  /-- `LDF` is set only where `last_zero` is 0, which is then `LD` (43_search.md R148). -/
  lastFlag : s.blk.ldf = true → s.blk.ld = 0

/-- The next `n` raw samples: the environment's list, continued by free values (40_line_and_delay.md R86). -/
def rawBits (n : Nat) (samples : List Bool) (draws : Nat) : List Bool :=
  samples.take n ++ (List.range' draws (n - samples.length)).map Config.lineLevel

/-- The state after the environment has answered `n` raw samples. -/
def afterSamples (n : Nat) (s : State) : State :=
  { s with samples := s.samples.drop n, draws := s.draws + (n - s.samples.length) }

/-- The block after a slot on the active line: that line is released with its level low, and nothing else has changed
(41_bit_byte.md R109). -/
def afterSlot (b : Block) : Block := { b with lines := b.lines.modify b.ch.toNat (fun _ => LineDriver.released) }

/-- The six events of `BusReset()` (41_bit_byte.md R100). -/
def resetEvents (b : Block) (r : List Bool) : List LineEvent :=
  [.low b.ch, .wait .resetTx b.lt.resetTx.toNat, .rel b.ch, .wait .resetDelay b.lt.resetDelay.toNat,
   .samp b.ch r (majority r), .wait .resetRx b.lt.resetRx.toNat]

/-- The four events of `WriteBit(b)` (41_bit_byte.md R102). -/
def writeEvents (b : Block) (bit : Bool) : List LineEvent :=
  if bit then [.low b.ch, .wait .writeLow b.lt.writeLow.toNat, .rel b.ch,
    .wait .writeRest (b.lt.writeSlot.toNat - b.lt.writeLow.toNat)]
  else [.low b.ch, .wait .writeLow b.lt.writeLow.toNat,
    .wait .writeRest (b.lt.writeSlot.toNat - b.lt.writeLow.toNat), .rel b.ch]

/-- The six events of `ReadBit()` (41_bit_byte.md R104). -/
def readEvents (b : Block) (r : List Bool) : List LineEvent :=
  [.low b.ch, .wait .readLow 1, .rel b.ch, .wait .readSamp b.lt.readSamp.toNat,
   .samp b.ch r (majority r), .wait .readRest (b.lt.readSlot.toNat - (1 + b.lt.readSamp.toNat))]

/-- The events of `WriteByte(v)`: `CRIT(1)`, eight write slots bit 0 first, `CRIT(0)` (41_bit_byte.md R106). -/
def writeByteEvents (b : Block) (v : Byte) : List LineEvent :=
  .crit true :: (List.range 8).flatMap (fun i => writeEvents b (v.getLsbD i)) ++ [.crit false]

/-- The raw samples of slot `i` among those of a run of slots. -/
def slotSamples (r : List Bool) (i : Nat) : List Bool := (r.drop (10 * i)).take 10

/-- The events of `ReadByte()` for its 80 raw samples (41_bit_byte.md R107). -/
def readByteEvents (b : Block) (r : List Bool) : List LineEvent :=
  .crit true :: (List.range 8).flatMap (fun i => readEvents b (slotSamples r i)) ++ [.crit false]

/-- The number of slot-level operations among some events: each reset, write slot and read slot begins with one `LOW`
(43_search.md R155). -/
def slotCount (es : List LineEvent) : Nat := es.countP (fun e => match e with | .low _ => true | _ => false)

/-- The event concerns line `c`, or no line. -/
def eventOn (c : Byte) : LineEvent → Prop
  | .low d => d = c
  | .rel d => d = c
  | .samp d _ _ => d = c
  | .wait _ _ => True
  | .crit _ => True

/-- An event with its duration removed (70_reset_and_hazards.md R250). -/
def eraseDuration : LineEvent → LineEvent
  | .wait name _ => .wait name 0
  | e => e

/-! ### A search whose 64 positions complete -/

/-- The pair of filtered levels read at position `n` in a list of the 64 positions' pairs. -/
def pairAt (pairs : List (Bool × Bool)) (n : Nat) : Bool × Bool := pairs.getD (n - 1) (false, false)

/-- The two read bits are a discrepancy: both 0 (43_search.md R145). -/
def discrepancyAt (pairs : List (Bool × Bool)) (n : Nat) : Bool := !(pairAt pairs n).1 && !(pairAt pairs n).2

/-- The direction at position `n`: the only value present, or at a discrepancy the bit of the old identity before `LD`,
1 at `LD` and 0 after it (43_search.md R145). -/
def directionAt (ld : Byte) (old : Ident) (pairs : List (Bool × Bool)) (n : Nat) : Bool :=
  if discrepancyAt pairs n then (if n < ld.toNat then idBit old n else decide (n = ld.toNat)) else (pairAt pairs n).1

/-- The last position up to `bound` at which a discrepancy was answered with 0, or 0 if there is none
(43_search.md R145, R148). -/
def lastZeroUpTo (bound : Nat) (ld : Byte) (old : Ident) (pairs : List (Bool × Bool)) : Nat :=
  ((List.range' 1 bound).filter (fun n => discrepancyAt pairs n && !directionAt ld old pairs n)).getLastD 0

/-- The identity whose bit at position `n` is `dir n` (20_memory.md R42). -/
def identityOf (dir : Nat → Bool) : Ident :=
  Vector.ofFn (fun k : Fin 8 => byteOfBits ((List.range 8).map (fun m => dir (8 * k.val + m + 1))))

/-- The initial `SearchState`: all 0 (10_state.md R17). -/
def initialSearch : SearchState := ⟨0, 0, false, zeroIdent⟩

/-- The raw samples of a noise-free filtered sample. -/
def steady (level : Bool) : List Bool := List.replicate 10 level

/-- The line events of a search that meets presence and completes its positions up to `count`: one reset, the command
byte, then for each position two read slots and one write slot (43_search.md R141). -/
def searchEvents (b : Block) (pairs : List (Bool × Bool)) (dir : Nat → Bool) (count : Nat) : List LineEvent :=
  resetEvents b (steady false) ++ writeByteEvents b 0xF0 ++
    (List.range' 1 count).flatMap (fun n =>
      readEvents b (steady (pairAt pairs n).1) ++ readEvents b (steady (pairAt pairs n).2) ++ writeEvents b (dir n))

/-- What a search that completes its 64 positions leaves in the cursor, from the cursor it starts with, and which
outcome it has (43_search.md R148, R149). -/
def completedSearch (start : SearchState) (pairs : List (Bool × Bool)) : SearchState × Status :=
  let new := identityOf (directionAt start.ld start.id pairs)
  let z := lastZeroUpTo 64 start.ld start.id pairs
  let zf := lastZeroUpTo 8 start.ld start.id pairs
  if crc8 new.toList ≠ 0 then (initialSearch, .crcMismatch)
  else if new = zeroIdent then (initialSearch, .zeroPayload)
  else (⟨BitVec.ofNat 8 z, if zf = 0 then start.lfd else BitVec.ofNat 8 zf, decide (z = 0), new⟩, .ok)

/-- The cursor a command's traversal starts with, where the traversal goes to the bus: `SRCHFIRST` resets it,
`SRCHNEXT` takes it as it stands, `SRCHVERIFY` forces `LD` to 64 and `LDF` to 0 (43_search.md R150, R152, R153). -/
def startCursor (c : SearchState) : Instr → SearchState
  | .srchfirst => initialSearch
  | .srchverify => { c with ld := 64, ldf := false }
  | _ => c

/-- The block after a bus operation that raised `CRIT`: the active line released, `CRIT` low, and this cursor. -/
def afterSearch (c : SearchState) (b : Block) : Block := setSearchState c { afterSlot b with crit := false }

/-- The levels of a search that meets presence and then these pairs. -/
def pairLevels (pairs : List (Bool × Bool)) : List Bool := false :: pairs.flatMap (fun p => [p.1, p.2])

/-- The outcomes each command can end with (60_exceptions.md R211). -/
def possibleStatus : Instr → List Status
  | .owreset => [.ok, .noPresence]
  | .crcchk _ => [.ok, .crcMismatch, .zeroPayload]
  | .srchfirst => [.ok, .noPresence, .noResponse, .crcMismatch, .zeroPayload]
  | .srchnext => [.ok, .searchExhausted, .noPresence, .noResponse, .crcMismatch, .zeroPayload]
  | .srchverify => [.ok, .verifyMismatch, .noPresence, .noResponse, .crcMismatch, .zeroPayload]
  | .init | .selch _ | .waitconv | .owwbit _ | .owrbit | .owwbyte _ | .owrbyte | .crcinit | .crcupd _
  | .idrd _ | .idwr _ _ | .strd _ => [.ok]

end Sys2Proof.Machine
end

