-- ==== Sys2Proof/Certificates/Slice0/Obligations.lean ====
section
/-! DEFINITION. The statements about the machine, from the numbered rules of spec/. Each docstring names the rule it
formalises and, where a clause rests on the model's own choice, the log entry. -/

open Sys2Proof Sys2Proof.Machine

/-! ### Encoding and the command port -/

/-- Decoding the encoding of a well-formed command gives it back (30_encoding.md R63, R64). -/
def Obligations.DecodeOfEncodeIsTheCommand : Prop :=
  ∀ i : Instr, i.WellFormed → decode (encode i) = .ok i

/-- Every legal word has one meaning: it is the encoding of the command it decodes to, which is well formed
(30_encoding.md R61, R64). -/
def Obligations.EncodeOfDecodeIsTheWord : Prop :=
  ∀ (w : CmdWord) (i : Instr), decode w = .ok i → encode i = w ∧ i.WellFormed

/-- R63: the decoder reads a command exactly where the word selects a row of the opcode map, the command is that row's,
and no word selects two rows. -/
def Obligations.DecoderFollowsTheOpcodeMap : Prop :=
  (∀ w : CmdWord, (∃ i, decode w = .ok i) ↔ ∃ row ∈ opcodeTable, row.selects w = true) ∧
  (∀ (w : CmdWord) (i : Instr) (row : OpcodeRow), decode w = .ok i → row ∈ opcodeTable → row.selects w = true →
    row.mnemonic = i.mnemonic) ∧
  opcodeTable.Pairwise (fun p q => ∀ w : CmdWord, ¬(p.selects w = true ∧ q.selects w = true))

/-- Words of 95_test_vectors.md section 3.1 (V-ENC-1 to V-ENC-18) decode as written there. -/
def Obligations.WrittenOutWordsDecode : Prop :=
  decode 0x010000 = .ok .init ∧ decode 0x020300 = .ok (.selch 3) ∧ decode 0x110001 = .ok (.owwbit 1) ∧
  decode 0x1300F0 = .ok (.owwbyte 0xF0) ∧ decode 0x2200A2 = .ok (.crcchk 0xA2) ∧ decode 0x300000 = .ok .srchfirst ∧
  decode 0x410528 = .ok (.idwr 5 0x28) ∧ decode 0x420500 = .ok (.strd 5) ∧
  decode 0x110002 = .error .bitOperand ∧ decode 0x400800 = .error .indexRange ∧
  decode 0x420600 = .error .selectRange ∧ decode 0x150000 = .error .unknownOp ∧ decode 0x130100 = .error .unusedField

/-- R65: which words are illegal, each by its cause, and what an illegal command does: no register changes, no line
event, `STATUS = 0xFF`, `DATA = 0`. -/
def Obligations.IllegalWordsChangeNothing : Prop :=
  (∀ w : CmdWord, (¬ ∃ row ∈ opcodeTable, row.selects w = true) ↔
    (opField w).toNat ∉ [0x01, 0x02, 0x03, 0x10, 0x11, 0x12, 0x13, 0x14, 0x20, 0x21, 0x22, 0x30, 0x31, 0x32, 0x40, 0x41, 0x42] ∨
    ((opField w).toNat ∈ [0x01, 0x03, 0x10, 0x12, 0x14, 0x20, 0x30, 0x31, 0x32] ∧ (aField w ≠ 0 ∨ bField w ≠ 0)) ∨
    ((opField w).toNat ∈ [0x11, 0x13, 0x21, 0x22] ∧ aField w ≠ 0) ∨
    ((opField w).toNat ∈ [0x02, 0x40, 0x42] ∧ bField w ≠ 0) ∨
    ((opField w).toNat = 0x11 ∧ 1 < (bField w).toNat) ∨
    ((opField w).toNat ∈ [0x40, 0x41] ∧ 7 < (aField w).toNat) ∨
    ((opField w).toNat = 0x42 ∧ 5 < (aField w).toNat)) ∧
  (∀ (s : State) (w : CmdWord) (rest : List HostInput), s.inputs = .command w :: rest →
    (¬ ∃ row ∈ opcodeTable, row.selects w = true) →
    step s = .next { s with inputs := rest, responses := s.responses ++ [⟨.illegalCommand, 0⟩] }) ∧
  (Response.mk .illegalCommand 0).word = 0xFF00

/-- The model's choice (log 10): a command term whose operand is out of range, which the decoder never gives, answers
`ILLEGAL_COMMAND` and changes nothing when it is given to `exec` directly. The spec speaks of illegal words only; those
are `IllegalWordsChangeNothing`'s. -/
def Obligations.OperandOutOfRangeIsIllegal : Prop :=
  ∀ (i : Instr) (s : State), ¬ i.WellFormed →
    exec i s = .next { s with responses := s.responses ++ [⟨.illegalCommand, 0⟩] }

/-- A step runs the decoded command on the state in which its word has been taken from the command port; a well-formed
command presented at the port runs. The list of inputs is the model's form of the port (log 1). -/
def Obligations.StepRunsTheDecodedCommand : Prop :=
  (∀ (s : State) (w : CmdWord) (rest : List HostInput) (i : Instr), s.inputs = .command w :: rest →
    decode w = .ok i → step s = exec i { s with inputs := rest }) ∧
  (∀ (s : State) (i : Instr), i.WellFormed → step (presentCommand (encode i) s) = exec i s) ∧
  (∀ s : State, s.inputs = [] → step s = .next s)

/-- One command, one response: a step that takes a command word takes that word only and gives one response more,
whatever the word and the state. The lists are the model's form of the port (logs 1, 8). -/
def Obligations.EveryCommandGivesOneResponse : Prop :=
  ∀ (s : State) (w : CmdWord) (rest : List HostInput), s.inputs = .command w :: rest →
    ∃ t r, step s = .next t ∧ t.inputs = rest ∧ t.responses = s.responses ++ [r]

/-- R62's layout with R210's codes: `STATUS` in bits 15:8, `DATA` in bits 7:0. -/
def Obligations.ResponseWordLayout : Prop :=
  (∀ r : Response, r.word.extractLsb' 8 8 = r.status.code ∧ r.word.extractLsb' 0 8 = r.data) ∧
  Status.ok.code = 0x00 ∧ Status.noPresence.code = 0x01 ∧ Status.crcMismatch.code = 0x02 ∧
  Status.searchExhausted.code = 0x03 ∧ Status.noResponse.code = 0x04 ∧ Status.zeroPayload.code = 0x05 ∧
  Status.verifyMismatch.code = 0x06 ∧ Status.illegalCommand.code = 0xFF

/-- R211: each well-formed command completes, from every state, with one response whose status is among those of its
row, and an illegal word with `ILLEGAL_COMMAND`; and, with R210, `DATA` is 0 when the status is not `OK`. -/
def Obligations.OutcomesOfEachCommand : Prop :=
  (∀ (i : Instr) (s : State), i.WellFormed →
    ∃ t r, exec i s = .next t ∧ t.responses = s.responses ++ [r] ∧ r.status ∈ possibleStatus i ∧
      (r.status ≠ .ok → r.data = 0)) ∧
  (∀ (s : State) (w : CmdWord) (rest : List HostInput) (e : Illegal), s.inputs = .command w :: rest →
    decode w = .error e → ∃ t, step s = .next t ∧ t.responses = s.responses ++ [⟨.illegalCommand, 0⟩])

/-! ### Reset and the legal states -/

/-- R230 with the reset values of 10_state.md R10 to R26: every register whose value the spec gives. -/
def Obligations.ResetStateValues : Prop :=
  State.reset.blk.ch = 0 ∧
  (1 ≤ State.reset.blk.lines.length ∧ State.reset.blk.lines.length ≤ 256) ∧
  (∀ l ∈ State.reset.blk.lines, l.dir = .inp ∧ l.lvl = .low) ∧
  (∀ k, k < 8 → memRead State.reset.blk k = 0) ∧
  State.reset.blk.ld = 0 ∧ State.reset.blk.lfd = 0 ∧ State.reset.blk.ldf = false ∧
  State.reset.blk.crcAcc = 0 ∧ State.reset.blk.nz = false ∧ State.reset.blk.crit = false ∧
  State.reset.trace = []

/-- The hardware reset event puts every register the spec gives a value into that value from any state, keeps the
number of lines and does nothing on any line. That it is an input between two commands is log 2. -/
def Obligations.HardwareResetEvent : Prop :=
  ∀ (s : State) (rest : List HostInput), s.inputs = .hardwareReset :: rest →
    ∃ t, step s = .next t ∧ t.inputs = rest ∧ t.blk.ch = 0 ∧
      t.blk.lines = List.replicate s.blk.lines.length ⟨.inp, .low⟩ ∧
      searchState t.blk = initialSearch ∧ t.blk.crcAcc = 0 ∧ t.blk.nz = false ∧ t.blk.crit = false ∧
      t.trace = [] ∧ t.samples = s.samples ∧ t.policy = s.policy ∧ t.responses = s.responses

/-- The state after reset is legal. -/
def Obligations.ResetStateIsLegal : Prop := Inv State.reset

/-- Every step keeps the legal states: `CH < N_CHANNELS`, every line released with its level low, `CRIT` low,
`LD <= 64`, `LFD <= 8`, and `LDF` only with `LD = 0` (10_state.md R10, R11, R12, R14, R15, R26; 43_search.md R148). -/
def Obligations.StepKeepsLegalStates : Prop :=
  ∀ s t : State, Inv s → step s = .next t → Inv t

/-! ### Who may write what -/

/-- `CH`, `LT`, `CRC_ACC`, `NZ`, `LD`, `LFD`, `LDF` and `ID` change by the commands the rules name as their writers and
by no other command (44_host_access.md R173; 10_state.md R10, R13 to R16, R20, R21, R24; 40_line_and_delay.md R90). That
no command changes the policy, the number of lines or the inputs still to come, and only `INIT` the store's list, is the
model's form of the parameters and inputs (logs 1, 3, 6). The line drivers and `CRIT` have statements of their own. -/
def Obligations.OnlyNamedCommandsWriteARegister : Prop :=
  ∀ (i : Instr) (s t : State), exec i s = .next t →
    ((∀ n, i ≠ .selch n) → t.blk.ch = s.blk.ch) ∧
    (i ≠ .init → t.blk.lt = s.blk.lt ∧ t.store = s.store) ∧
    (i ≠ .crcinit → (∀ v, i ≠ .crcupd v) → t.blk.crcAcc = s.blk.crcAcc ∧ t.blk.nz = s.blk.nz) ∧
    (i ≠ .srchfirst → i ≠ .srchnext → t.blk.ld = s.blk.ld ∧ t.blk.lfd = s.blk.lfd ∧ t.blk.ldf = s.blk.ldf) ∧
    (i ≠ .srchfirst → i ≠ .srchnext → (∀ k v, i ≠ .idwr k v) → ∀ k, memRead t.blk k = memRead s.blk k) ∧
    t.policy = s.policy ∧ t.inputs = s.inputs ∧ t.blk.lines.length = s.blk.lines.length

/-- A command acts on the active line and on no other: the drivers of the other lines keep their value, and every line
event it adds is of line `CH` (10_state.md R10, R12; 20_memory.md R50). -/
def Obligations.OnlyTheActiveLineIsDriven : Prop :=
  ∀ (i : Instr) (s t : State), exec i s = .next t →
    (∀ k, k ≠ s.blk.ch.toNat → t.blk.lines[k]? = s.blk.lines[k]?) ∧
    ∃ es, t.trace = s.trace ++ es ∧ ∀ e ∈ es, eventOn s.blk.ch e

/-- R250: no result depends on a duration. Two states that differ only in the live timing constants answer the same
response, leave every other register and input the same, and add the same events but for their durations. -/
def Obligations.NoResultDependsOnADuration : Prop :=
  ∀ (i : Instr) (s : State) (lt : TimingTable Duration),
    ∃ t u, exec i s = .next t ∧ exec i { s with blk := { s.blk with lt := lt } } = .next u ∧
      u.responses = t.responses ∧ { u.blk with lt := t.blk.lt } = t.blk ∧ u.samples = t.samples ∧
      u.store = t.store ∧ u.draws = t.draws ∧ u.trace.map eraseDuration = t.trace.map eraseDuration

/-! ### Line control and delay -/

/-- `INIT` (40_line_and_delay.md R90): all eight constants at once from what the store presents, truncated to 32 bits,
and nothing else. That the store's presentations are a list continued by free values is log 6. -/
def Obligations.InitLoadsAllEightConstants : Prop :=
  ∀ s : State, ∃ tt : TimingTable Nat, (∀ u rest, s.store = u :: rest → tt = u) ∧
    exec .init s = .next { s with
      blk := { s.blk with lt :=
        { conv := BitVec.ofNat 32 (Config.delayCal .conv tt.conv)
          resetTx := BitVec.ofNat 32 (Config.delayCal .resetTx tt.resetTx)
          resetDelay := BitVec.ofNat 32 (Config.delayCal .resetDelay tt.resetDelay)
          resetRx := BitVec.ofNat 32 (Config.delayCal .resetRx tt.resetRx)
          writeLow := BitVec.ofNat 32 (Config.delayCal .writeLow tt.writeLow)
          writeSlot := BitVec.ofNat 32 (Config.delayCal .writeSlot tt.writeSlot)
          readSamp := BitVec.ofNat 32 (Config.delayCal .readSamp tt.readSamp)
          readSlot := BitVec.ofNat 32 (Config.delayCal .readSlot tt.readSlot) } }
      store := s.store.drop 1
      draws := s.draws + (1 - s.store.length)
      responses := s.responses ++ [⟨.ok, 0⟩] }

/-- R82: `CH <- n` when `n < N_CHANNELS`, else no change; always `OK`, `DATA` the channel after the operation. -/
def Obligations.SelchSelectsOrKeeps : Prop :=
  ∀ (n : Byte) (s : State),
    exec (.selch n) s = .next { s with
      blk := { s.blk with ch := if n.toNat < s.blk.lines.length then n else s.blk.ch }
      responses := s.responses ++ [⟨.ok, if n.toNat < s.blk.lines.length then n else s.blk.ch⟩] }

/-- R91: one `WAIT(conv, LT.conv)`, no register written. -/
def Obligations.WaitconvWaitsTheConversion : Prop :=
  ∀ s : State,
    exec .waitconv s = .next { s with
      trace := s.trace ++ [.wait .conv s.blk.lt.conv.toNat]
      responses := s.responses ++ [⟨.ok, 0⟩] }

/-- The line's driver: driven low after `DriveLow`, not driven after `Release`, for a line that exists
(10_state.md R11, 40_line_and_delay.md R84, R85). -/
def Obligations.DriveLowThenReleaseFreesTheLine : Prop :=
  ∀ (c : Byte) (s : State), c.toNat < s.blk.lines.length →
    drives (driveLow c s).blk c.toNat = some .low ∧ (driveLow c s).trace = s.trace ++ [.low c] ∧
    (∀ t : State, drives (release c t).blk c.toNat = none ∧ (release c t).trace = t.trace ++ [.rel c]) ∧
    (release c (driveLow c s)).blk = { s.blk with lines := s.blk.lines.set c.toNat ⟨.inp, .low⟩ }

/-- R86's filter over the samples the environment lists (log 5): ten raw samples in order, 1 exactly when more than
five are high, one `SAMP` event, no register changed. -/
def Obligations.SampleFiltersTenRawSamples : Prop :=
  ∀ (c : Byte) (s : State), 10 ≤ s.samples.length →
    sample c s = (decide (5 < (s.samples.take 10).count true),
      { s with
        samples := s.samples.drop 10
        trace := s.trace ++ [.samp c (s.samples.take 10) (decide (5 < (s.samples.take 10).count true))] })

/-! ### Bit and byte transactions -/

/-- `OWRESET` (41_bit_byte.md R100, R101): the six events, ten samples, presence when the filtered level is 0, the line
released. The samples are the environment's list continued by free values (log 5). -/
def Obligations.OwresetReportsPresence : Prop :=
  ∀ s : State,
    let r := rawBits 10 s.samples s.draws
    exec .owreset s = .next { afterSamples 10 s with
      blk := afterSlot s.blk
      trace := s.trace ++ resetEvents s.blk r
      responses := s.responses ++ [if 5 < r.count true then ⟨.noPresence, 0⟩ else ⟨.ok, 1⟩] }

/-- R102, R103: the four events of the bit, a 1 released before the rest of the slot, a 0 after it; `OK/00`. -/
def Obligations.OwwbitWritesOneSlot : Prop :=
  ∀ (bit : Bool) (s : State),
    exec (.owwbit (if bit then 1 else 0)) s = .next { s with
      blk := afterSlot s.blk
      trace := s.trace ++ writeEvents s.blk bit
      responses := s.responses ++ [⟨.ok, 0⟩] }

/-- `OWRBIT` (41_bit_byte.md R104, R105): the six events, ten samples, `DATA` the filtered level. The samples are the
environment's list continued by free values (log 5). -/
def Obligations.OwrbitReadsOneSlot : Prop :=
  ∀ s : State,
    let r := rawBits 10 s.samples s.draws
    exec .owrbit s = .next { afterSamples 10 s with
      blk := afterSlot s.blk
      trace := s.trace ++ readEvents s.blk r
      responses := s.responses ++ [⟨.ok, if 5 < r.count true then 1 else 0⟩] }

/-- R106, R110: `CRIT(1)`, the slots of bits 0 to 7 in that order, `CRIT(0)`: 34 events; `CRIT` is 0 at the end. -/
def Obligations.OwwbyteWritesEightSlots : Prop :=
  ∀ (v : Byte) (s : State),
    exec (.owwbyte v) s = .next { s with
      blk := { afterSlot s.blk with crit := false }
      trace := s.trace ++ writeByteEvents s.blk v
      responses := s.responses ++ [⟨.ok, 0⟩] } ∧
    (writeByteEvents s.blk v).length = 34

/-- `OWRBYTE` (41_bit_byte.md R107, R111): `CRIT(1)`, eight read slots, `CRIT(0)`: 50 events; bit `i` of `DATA` is the
filtered level of slot `i`. The samples are the environment's list continued by free values (log 5). -/
def Obligations.OwrbyteReadsEightSlots : Prop :=
  ∀ s : State,
    let r := rawBits 80 s.samples s.draws
    (∃ v : Byte, (∀ i, i < 8 → v.getLsbD i = decide (5 < (slotSamples r i).count true)) ∧
      exec .owrbyte s = .next { afterSamples 80 s with
        blk := { afterSlot s.blk with crit := false }
        trace := s.trace ++ readByteEvents s.blk r
        responses := s.responses ++ [⟨.ok, v⟩] }) ∧
    (readByteEvents s.blk r).length = 50

/-! ### CRC8 engine -/

/-- R128. -/
def Obligations.CrcinitClearsTheValidator : Prop :=
  ∀ s : State,
    exec .crcinit s = .next { s with
      blk := { s.blk with crcAcc := 0, nz := false }
      responses := s.responses ++ [⟨.ok, 0⟩] }

/-- R129, R21: the new accumulator, and `NZ` exactly when it was set or the byte is not 0. -/
def Obligations.CrcupdFoldsAByte : Prop :=
  ∀ (v : Byte) (s : State),
    exec (.crcupd v) s = .next { s with
      blk := { s.blk with crcAcc := crc8Update s.blk.crcAcc v, nz := s.blk.nz || decide (v ≠ 0) }
      responses := s.responses ++ [⟨.ok, crc8Update s.blk.crcAcc v⟩] }

/-- R130's pseudocode: the mismatch is tested first, no register is written. -/
def Obligations.CrcchkGivesTheVerdict : Prop :=
  ∀ (v : Byte) (s : State),
    exec (.crcchk v) s = .next { s with
      responses := s.responses ++
        [if s.blk.crcAcc ≠ v then ⟨.crcMismatch, 0⟩ else if s.blk.nz = false then ⟨.zeroPayload, 0⟩ else ⟨.ok, 1⟩] }

/-- The streamed validator is `validate`: the commands of `VALIDATE`, presented from any state, end with `OK/01`
exactly when `validate(payload ++ [check])` is true, and leave everything but the validator as it was
(42_crc8.md R124, R128 to R130; 30_encoding.md R67). The list of inputs is the model's form of the port (log 1). -/
def Obligations.StreamedValidatorIsValidate : Prop :=
  ∀ (payload : List Byte) (check : Byte) (s : State) (rest : List HostInput),
    s.inputs = programInputs (validateProgram payload check) ++ rest →
    ∃ t rs r, Host.Core.run Sys2Proof.core (payload.length + 2) s = .next t ∧
      t.responses = s.responses ++ rs ++ [r] ∧
      (r = ⟨.ok, 1⟩ ↔ validate (payload ++ [check]) = some true) ∧
      t.blk = { s.blk with crcAcc := crc8 payload, nz := payload.any (fun v => decide (v ≠ 0)) } ∧
      t.inputs = rest ∧ t.trace = s.trace ∧ t.samples = s.samples

/-- R121, R122: the rotation form and the table form are the same function as R120's loop, for all pairs; the table is
a permutation of the 256 bytes with 0 at 0. -/
def Obligations.CrcFormsAgree : Prop :=
  (∀ acc byte : Byte, crc8Rotate acc byte = crc8Update acc byte ∧ crc8Lookup acc byte = crc8Update acc byte) ∧
  (∀ x : Byte, crc8Table[x.toNat]? = some (crc8Update 0 x)) ∧
  crc8Table.length = 256 ∧ crc8Table.Nodup ∧ crc8Table[0]? = some 0

/-- R125: the update depends only on `acc xor byte`, is a bijection of the byte, and is 0 exactly when the byte is the
accumulator. -/
def Obligations.CrcUpdateDependsOnXor : Prop :=
  ∀ acc : Byte, (∀ byte : Byte, crc8Update acc byte = crc8Update 0 (acc ^^^ byte) ∧
      (crc8Update acc byte = 0 ↔ byte = acc)) ∧
    Function.Bijective (crc8Update acc)

/-- R126: the two forms of the CRC test are one, and on eight bytes the search's test is `validate`. -/
def Obligations.CrcTestFormsAgree : Prop :=
  (∀ (bytes : List Byte) (c : Byte), crc8 (bytes ++ [c]) = 0 ↔ c = crc8 bytes) ∧
  (∀ d : Ident, validate d.toList = some true ↔ crc8 d.toList = 0 ∧ d ≠ zeroIdent)

/-- R127: appending the CRC to a payload with a nonzero byte gives a valid buffer, appending it to an all-zero payload
does not, and flipping any single bit of payload or check byte makes `validate` false. -/
def Obligations.SingleBitErrorsAreDetected : Prop :=
  (∀ bytes : List Byte, validate (bytes ++ [crc8 bytes]) = some (bytes.any (fun v => decide (v ≠ 0)))) ∧
  (∀ (bytes : List Byte) (j i : Nat), j < bytes.length + 1 → i < 8 →
    validate ((bytes ++ [crc8 bytes]).modify j (fun v => v ^^^ (1#8 <<< i))) = some false)

/-! ### Device search -/

/-- R142: with `LDF` set the call ends at once, without a line event; `SearchState` as `EXHAUST_POLICY` says. -/
def Obligations.ExhaustedSearchTouchesNoBus : Prop :=
  ∀ s : State, s.blk.ldf = true →
    exec .srchnext s = .next { s with
      blk := match s.policy with
        | .sticky => s.blk
        | .reset => setSearchState initialSearch s.blk
      responses := s.responses ++ [⟨.searchExhausted, 0⟩] }

/-- R150 and R152: find first is find next from the initial `SearchState`. -/
def Obligations.SrchfirstIsSrchnextFromTheInitialCursor : Prop :=
  ∀ s : State, exec .srchfirst s = exec .srchnext { s with blk := setSearchState initialSearch s.blk }

/-- 43_search.md R143, R153: without a presence pulse (the samples as log 5 says) the reset's six events are the whole
bus activity; `SRCHFIRST` and `SRCHNEXT` reset `SearchState`, `SRCHVERIFY` keeps it. -/
def Obligations.NoPresenceEndsTheSearch : Prop :=
  ∀ (i : Instr) (s : State), i = .srchfirst ∨ (i = .srchnext ∧ s.blk.ldf = false) ∨ i = .srchverify →
    5 < (rawBits 10 s.samples s.draws).count true →
    exec i s = .next { afterSamples 10 s with
      blk := setSearchState (if i = .srchverify then searchState s.blk else initialSearch) (afterSlot s.blk)
      trace := s.trace ++ resetEvents s.blk (rawBits 10 s.samples s.draws)
      responses := s.responses ++ [⟨.noPresence, 0⟩] }

/-- R145 to R149: `SRCHFIRST` and `SRCHNEXT` on a line that answers presence and then 64 pairs none of which is 1,1: the
exact events, the identity of the directions taken, the cursor and the outcome. The noise-free samples are listed
(log 5). -/
def Obligations.CompletedSearchFollowsThePairs : Prop :=
  ∀ (i : Instr) (s : State) (pairs : List (Bool × Bool)) (rest : List Bool),
    i = .srchfirst ∨ (i = .srchnext ∧ s.blk.ldf = false) →
    pairs.length = 64 → (true, true) ∉ pairs → s.samples = noiseFree (pairLevels pairs) ++ rest →
    let start := startCursor (searchState s.blk) i
    let result := completedSearch start pairs
    exec i s = .next { s with
      blk := afterSearch result.1 s.blk
      samples := rest
      trace := s.trace ++ searchEvents s.blk pairs (directionAt start.ld start.id pairs) 64
      responses := s.responses ++ [⟨result.2, if result.2 = .ok then 1 else 0⟩] }

/-- R153 on the same lines: with `LD` forced to 64 the traversal replays the known identity; the outcome says whether
that identity was reached, and `SearchState` is as before the command. -/
def Obligations.CompletedVerifyKeepsTheCursor : Prop :=
  ∀ (s : State) (pairs : List (Bool × Bool)) (rest : List Bool),
    pairs.length = 64 → (true, true) ∉ pairs → s.samples = noiseFree (pairLevels pairs) ++ rest →
    let start := startCursor (searchState s.blk) .srchverify
    let result := completedSearch start pairs
    exec .srchverify s = .next { s with
      blk := afterSearch (searchState s.blk) s.blk
      samples := rest
      trace := s.trace ++ searchEvents s.blk pairs (directionAt start.ld start.id pairs) 64
      responses := s.responses ++
        [if result.2 ≠ .ok then ⟨result.2, 0⟩ else if result.1.id = s.blk.id then ⟨.ok, 1⟩ else ⟨.verifyMismatch, 0⟩] }

/-- R149, R155: a 1,1 pair at position `n` ends the search with `NO_RESPONSE` after 1 + 8 + 3(n-1) + 2 slot-level
operations, the last two of them reads; `SearchState` is reset (kept, for `SRCHVERIFY`). -/
def Obligations.AbortedSearchReportsNoResponse : Prop :=
  ∀ (i : Instr) (s : State) (pairs : List (Bool × Bool)) (rest : List Bool),
    i = .srchfirst ∨ (i = .srchnext ∧ s.blk.ldf = false) ∨ i = .srchverify →
    pairs.length < 64 → (true, true) ∉ pairs →
    s.samples = noiseFree (pairLevels (pairs ++ [(true, true)])) ++ rest →
    let start := startCursor (searchState s.blk) i
    let es := searchEvents s.blk pairs (directionAt start.ld start.id pairs) pairs.length ++
      readEvents s.blk (steady true) ++ readEvents s.blk (steady true)
    exec i s = .next { s with
      blk := afterSearch (if i = .srchverify then searchState s.blk else initialSearch) s.blk
      samples := rest
      trace := s.trace ++ es
      responses := s.responses ++ [⟨.noResponse, 0⟩] } ∧
    slotCount es = 1 + 8 + 3 * pairs.length + 2

/-- R153 from every state, whatever the line answers: `SRCHVERIFY` answers, and leaves all four parts of `SearchState`
as they were. Its outcome is that of the traversal `SRCHNEXT` makes with `LD = 64` and `LDF = 0`, turned into
`VERIFY_MISMATCH` when another identity was found. -/
def Obligations.SrchverifyRestoresTheCursor : Prop :=
  ∀ s : State, ∃ t u r,
    exec .srchverify s = .next t ∧
    exec .srchnext { s with blk := { s.blk with ld := 64, ldf := false } } = .next u ∧
    u.responses = s.responses ++ [r] ∧
    searchState t.blk = searchState s.blk ∧ t.trace = u.trace ∧ t.samples = u.samples ∧ t.draws = u.draws ∧
    t.responses = s.responses ++
      [if r.status = .ok ∧ u.blk.id ≠ s.blk.id then ⟨.verifyMismatch, 0⟩ else r]

/-- R149, R156: after `SRCHFIRST` or `SRCHNEXT` reports a failure `SearchState` is initial; after it reports a device,
`ID` passes the validator and is not the sentinel, and `LDF` is set exactly when `LD` is 0 (10_state.md R13,
43_search.md R148). -/
def Obligations.SearchReportsWholeIdentitiesOnly : Prop :=
  ∀ (i : Instr) (s t : State) (r : Response), i = .srchfirst ∨ i = .srchnext → exec i s = .next t →
    t.responses = s.responses ++ [r] →
    (r.status = .ok → r.data = 1 ∧ validIdent t.blk.id ∧ (t.blk.ldf = true ↔ t.blk.ld = 0)) ∧
    (r.status ∈ [.noPresence, .noResponse, .crcMismatch, .zeroPayload] → searchState t.blk = initialSearch)

/-- R155: no command performs more than the 201 slot-level operations of a whole search, whatever the line answers, and
a search that reports a device performs exactly those. -/
def Obligations.SlotsOfACommandAreBounded : Prop :=
  ∀ (i : Instr) (s t : State), exec i s = .next t →
    ∃ es, t.trace = s.trace ++ es ∧ slotCount es ≤ 201 ∧
      (i = .srchfirst ∨ i = .srchnext → t.responses = s.responses ++ [⟨.ok, 1⟩] → slotCount es = 201)

/-- On a line whose devices are valid, `SRCHFIRST` reports the one that comes first in position order, and sets `LDF`
exactly when it is alone (43_search.md R140, R150; log 11). -/
def Obligations.FirstSearchReportsTheLeastDevice : Prop :=
  ∀ (devices : List Ident) (d : Ident) (s : State) (rest : List Bool),
    d ∈ devices → (∀ e ∈ devices, validIdent e) → (∀ e ∈ devices, e = d ∨ precedes d e) →
    s.samples = noiseFree (searchLevels devices d) ++ rest →
    ∃ t, exec .srchfirst s = .next t ∧ t.responses = s.responses ++ [⟨.ok, 1⟩] ∧ t.blk.id = d ∧ t.samples = rest ∧
      (t.blk.ldf = true ↔ ∀ e ∈ devices, e = d)

/-- R154: on a line with a fixed set of valid devices, listed in position order, `SRCHFIRST` and repeated `SRCHNEXT`
report every device exactly once in that order, the call that finds the last sets `LDF`, and the call after it answers
`SEARCH_EXHAUSTED` (43_search.md R140). The list of inputs is log 1, the listed samples log 5, the device premise
log 11. -/
def Obligations.EnumerationReportsEveryDeviceOnce : Prop :=
  ∀ (devices : List Ident) (s : State) (rest : List Bool) (inputs : List HostInput),
    devices ≠ [] → devices.Pairwise precedes → (∀ e ∈ devices, validIdent e) →
    s.inputs = programInputs (.srchfirst :: List.replicate devices.length .srchnext) ++ inputs →
    s.samples = noiseFree (devices.flatMap (searchLevels devices)) ++ rest →
    (∀ (k : Nat) (d : Ident), devices[k]? = some d → ∃ t,
      Host.Core.run Sys2Proof.core (k + 1) s = .next t ∧ t.blk.id = d ∧
      t.responses = s.responses ++ List.replicate (k + 1) ⟨.ok, 1⟩ ∧
      (t.blk.ldf = true ↔ k + 1 = devices.length)) ∧
    ∃ t, Host.Core.run Sys2Proof.core (devices.length + 1) s = .next t ∧
      t.responses = s.responses ++ List.replicate devices.length ⟨.ok, 1⟩ ++ [⟨.searchExhausted, 0⟩] ∧
      t.samples = rest ∧ t.inputs = inputs

/-- On a line whose devices are valid, `SRCHVERIFY` of one of them answers `OK/01` and leaves `SearchState` as it was,
so that an enumeration in progress goes on (43_search.md R140, R153; log 11). -/
def Obligations.PresentDeviceVerifies : Prop :=
  ∀ (devices : List Ident) (s : State) (rest : List Bool),
    s.blk.id ∈ devices → (∀ e ∈ devices, validIdent e) →
    s.samples = noiseFree (searchLevels devices s.blk.id) ++ rest →
    ∃ t, exec .srchverify s = .next t ∧ t.responses = s.responses ++ [⟨.ok, 1⟩] ∧
      searchState t.blk = searchState s.blk ∧ t.samples = rest

/-! ### Host register access -/

/-- R170. -/
def Obligations.IdrdReadsAByte : Prop :=
  ∀ (k : Byte) (s : State), k.toNat ≤ 7 →
    exec (.idrd k) s = .next { s with responses := s.responses ++ [⟨.ok, memRead s.blk k.toNat⟩] }

/-- R171: `ID[k] <- v` and nothing else: every other byte of the buffer reads as before. -/
def Obligations.IdwrWritesOneByte : Prop :=
  ∀ (k v : Byte) (s : State), k.toNat ≤ 7 →
    ∃ id : Ident,
      exec (.idwr k v) s = .next { s with
        blk := { s.blk with id := id }
        responses := s.responses ++ [⟨.ok, 0⟩] } ∧
      ∀ j, memRead { s.blk with id := id } j = if j = k.toNat then v else memRead s.blk j

/-- R172: the six registers a select names, zero-extended; no register written. -/
def Obligations.StrdReadsTheSelectedRegister : Prop :=
  ∀ s : State, ∀ p ∈ [((0 : Byte), s.blk.ch), (1, s.blk.ld), (2, s.blk.lfd), (3, if s.blk.ldf then 1 else 0),
      (4, s.blk.crcAcc), (5, if s.blk.nz then 1 else 0)],
    exec (.strd p.1) s = .next { s with responses := s.responses ++ [⟨.ok, p.2⟩] }

/-- `SETID` then `GETID`: eight writes load an identity, eight reads give it back, byte 0 first
(30_encoding.md R67; 44_host_access.md R170, R171; 48_arithmetic_sequencing_access.md R206). -/
def Obligations.SetidThenGetidRoundTrip : Prop :=
  ∀ (d : Ident) (s : State), s.inputs = programInputs (setIdProgram d ++ getIdProgram) →
    ∃ t, Host.Core.run Sys2Proof.core 16 s = .next t ∧ t.blk = { s.blk with id := d } ∧
      t.responses = s.responses ++ List.replicate 8 ⟨.ok, 0⟩ ++ d.toList.map (fun v => ⟨.ok, v⟩) ∧
      t.trace = s.trace

/-! ### Surrounding software -/

/-- The registry: an identity saved in a slot loads back when it is valid, an all-zero slot loads as none, and other
slots are untouched (49_surrounding_software.md R181 to R183; outside the block, 00_scope.md R4). That the last clause also
holds of slots outside the table is the model's choice (log 13). -/
def Obligations.RegistryRoundTrip : Prop :=
  ∀ (t : Registry) (c k : Nat) (d : Ident), (∃ slots, t[c]? = some slots ∧ k < slots.length) →
    (validIdent d → registryLoad (registrySave t c k d) c k = some d) ∧
    registryLoad (registrySave t c k zeroIdent) c k = none ∧
    registryLoad (registryClear t c) c k = none ∧
    (∀ c' k', (c', k') ≠ (c, k) → registryLoad (registrySave t c k d) c' k' = registryLoad t c' k')

/-- The 12-bit decode loses nothing: 16 times the degrees and the sixteenths of the fraction make the signed raw pair,
and the fraction is less than a degree (49_surrounding_software.md R187; outside the block, 00_scope.md R4). -/
def Obligations.TwelveBitDecodeIsExact : Prop :=
  ∀ s0 s1 : Byte,
    (decodeTwelveBit s0 s1).1 * 16 + ((decodeTwelveBit s0 s1).2 / 625 : Nat) = (rawPair s0 s1).toInt ∧
    (decodeTwelveBit s0 s1).2 ≤ 9375
end

