-- ==== Sys2Proof/Laws/Fields.lean ====
section
/-! SUPPORT. The command word's fields: taking a field of an assembled word gives it back, and a word is its fields. -/

namespace Sys2Proof

theorem cmdWord_getLsbD (op a b : Byte) (i : Nat) :
    (cmdWord op a b).getLsbD i =
      if i < 8 then b.getLsbD i else if i < 16 then a.getLsbD (i - 8) else op.getLsbD (i - 16) := by
  show (op ++ a ++ b : BitVec (8 + 8 + 8)).getLsbD i = _
  rw [BitVec.getLsbD_append, BitVec.getLsbD_append]
  by_cases h1 : i < 8
  · simp [h1]
  · by_cases h2 : i < 16
    · have : i - 8 < 8 := by omega
      simp [h1, h2, this]
    · have h3 : ¬ i - 8 < 8 := by omega
      have h4 : i - 8 - 8 = i - 16 := by omega
      simp [h1, h2, h3, h4]

@[simp] theorem opField_cmdWord (op a b : Byte) : opField (cmdWord op a b) = op := by
  apply BitVec.eq_of_getLsbD_eq
  intro i hi
  simp only [opField, BitVec.getLsbD_extractLsb', cmdWord_getLsbD, hi, decide_true, Bool.true_and]
  rw [if_neg (by omega), if_neg (by omega), Nat.add_sub_cancel_left]

@[simp] theorem aField_cmdWord (op a b : Byte) : aField (cmdWord op a b) = a := by
  apply BitVec.eq_of_getLsbD_eq
  intro i hi
  simp only [aField, BitVec.getLsbD_extractLsb', cmdWord_getLsbD, hi, decide_true, Bool.true_and]
  rw [if_neg (by omega), if_pos (by omega), Nat.add_sub_cancel_left]

@[simp] theorem bField_cmdWord (op a b : Byte) : bField (cmdWord op a b) = b := by
  apply BitVec.eq_of_getLsbD_eq
  intro i hi
  simp only [bField, BitVec.getLsbD_extractLsb', cmdWord_getLsbD, hi, decide_true, Bool.true_and]
  rw [if_pos (by omega), Nat.zero_add]

@[simp] theorem cmdWord_fields (w : CmdWord) : cmdWord (opField w) (aField w) (bField w) = w := by
  apply BitVec.eq_of_getLsbD_eq
  intro i hi
  simp only [cmdWord_getLsbD, opField, aField, bField, BitVec.getLsbD_extractLsb']
  split
  · simp [*]
  · split
    · have h1 : i - 8 < 8 := by omega
      have h2 : 8 + (i - 8) = i := by omega
      simp [h1, h2]
    · have h1 : i - 16 < 8 := by omega
      have h2 : 16 + (i - 16) = i := by omega
      simp [h1, h2]

/-- A command word is determined by its three fields. -/
theorem cmdWord_ext {v w : CmdWord} (h1 : opField v = opField w) (h2 : aField v = aField w)
    (h3 : bField v = bField w) : v = w := by
  rw [← cmdWord_fields v, ← cmdWord_fields w, h1, h2, h3]

theorem opField_and (v w : CmdWord) : opField (v &&& w) = opField v &&& opField w := by
  apply BitVec.eq_of_getLsbD_eq
  intro i hi
  simp [opField, hi]

theorem aField_and (v w : CmdWord) : aField (v &&& w) = aField v &&& aField w := by
  apply BitVec.eq_of_getLsbD_eq
  intro i hi
  simp [aField, hi]

theorem bField_and (v w : CmdWord) : bField (v &&& w) = bField v &&& bField w := by
  apply BitVec.eq_of_getLsbD_eq
  intro i hi
  simp [bField, hi]

/-- A masked word equals a pattern exactly when each field does. -/
theorem masked_iff (w m p : CmdWord) : w &&& m = p ↔
    opField w &&& opField m = opField p ∧ aField w &&& aField m = aField p ∧ bField w &&& bField m = bField p := by
  constructor
  · rintro rfl
    exact ⟨(opField_and w m).symm, (aField_and w m).symm, (bField_and w m).symm⟩
  · rintro ⟨h1, h2, h3⟩
    exact cmdWord_ext (by rw [opField_and, h1]) (by rw [aField_and, h2]) (by rw [bField_and, h3])

end Sys2Proof
end

