-- ==== Sys2Proof/Laws/State.lean ====
section
/-! SUPPORT. What each named update of the state leaves in each field: one lemma per field per update, true by
definition, so that no later proof unfolds a record update. -/

namespace Sys2Proof.Machine

/-! ### `respond` -/

@[simp] theorem respond_blk (r : Response) (s : State) : (respond r s).blk = s.blk := rfl
@[simp] theorem respond_policy (r : Response) (s : State) : (respond r s).policy = s.policy := rfl
@[simp] theorem respond_inputs (r : Response) (s : State) : (respond r s).inputs = s.inputs := rfl
@[simp] theorem respond_samples (r : Response) (s : State) : (respond r s).samples = s.samples := rfl
@[simp] theorem respond_store (r : Response) (s : State) : (respond r s).store = s.store := rfl
@[simp] theorem respond_draws (r : Response) (s : State) : (respond r s).draws = s.draws := rfl
@[simp] theorem respond_trace (r : Response) (s : State) : (respond r s).trace = s.trace := rfl
@[simp] theorem respond_responses (r : Response) (s : State) : (respond r s).responses = s.responses ++ [r] := rfl

/-! ### `illegalCommand` -/

@[simp] theorem illegalCommand_blk (s : State) : (illegalCommand s).blk = s.blk := rfl
@[simp] theorem illegalCommand_policy (s : State) : (illegalCommand s).policy = s.policy := rfl
@[simp] theorem illegalCommand_inputs (s : State) : (illegalCommand s).inputs = s.inputs := rfl
@[simp] theorem illegalCommand_samples (s : State) : (illegalCommand s).samples = s.samples := rfl
@[simp] theorem illegalCommand_store (s : State) : (illegalCommand s).store = s.store := rfl
@[simp] theorem illegalCommand_draws (s : State) : (illegalCommand s).draws = s.draws := rfl
@[simp] theorem illegalCommand_trace (s : State) : (illegalCommand s).trace = s.trace := rfl
@[simp] theorem illegalCommand_responses (s : State) : (illegalCommand s).responses = s.responses ++ [⟨.illegalCommand, 0⟩] := rfl

/-! ### `emit` -/

@[simp] theorem emit_blk (e : LineEvent) (s : State) : (emit e s).blk = s.blk := rfl
@[simp] theorem emit_policy (e : LineEvent) (s : State) : (emit e s).policy = s.policy := rfl
@[simp] theorem emit_inputs (e : LineEvent) (s : State) : (emit e s).inputs = s.inputs := rfl
@[simp] theorem emit_samples (e : LineEvent) (s : State) : (emit e s).samples = s.samples := rfl
@[simp] theorem emit_store (e : LineEvent) (s : State) : (emit e s).store = s.store := rfl
@[simp] theorem emit_draws (e : LineEvent) (s : State) : (emit e s).draws = s.draws := rfl
@[simp] theorem emit_trace (e : LineEvent) (s : State) : (emit e s).trace = s.trace ++ [e] := rfl
@[simp] theorem emit_responses (e : LineEvent) (s : State) : (emit e s).responses = s.responses := rfl

/-! ### `driveLow` -/

@[simp] theorem driveLow_blk (c : Byte) (s : State) : (driveLow c s).blk = setDir c .out (setLvl c .low s.blk) := rfl
@[simp] theorem driveLow_policy (c : Byte) (s : State) : (driveLow c s).policy = s.policy := rfl
@[simp] theorem driveLow_inputs (c : Byte) (s : State) : (driveLow c s).inputs = s.inputs := rfl
@[simp] theorem driveLow_samples (c : Byte) (s : State) : (driveLow c s).samples = s.samples := rfl
@[simp] theorem driveLow_store (c : Byte) (s : State) : (driveLow c s).store = s.store := rfl
@[simp] theorem driveLow_draws (c : Byte) (s : State) : (driveLow c s).draws = s.draws := rfl
@[simp] theorem driveLow_trace (c : Byte) (s : State) : (driveLow c s).trace = s.trace ++ [.low c] := rfl
@[simp] theorem driveLow_responses (c : Byte) (s : State) : (driveLow c s).responses = s.responses := rfl

/-! ### `release` -/

@[simp] theorem release_blk (c : Byte) (s : State) : (release c s).blk = setDir c .inp s.blk := rfl
@[simp] theorem release_policy (c : Byte) (s : State) : (release c s).policy = s.policy := rfl
@[simp] theorem release_inputs (c : Byte) (s : State) : (release c s).inputs = s.inputs := rfl
@[simp] theorem release_samples (c : Byte) (s : State) : (release c s).samples = s.samples := rfl
@[simp] theorem release_store (c : Byte) (s : State) : (release c s).store = s.store := rfl
@[simp] theorem release_draws (c : Byte) (s : State) : (release c s).draws = s.draws := rfl
@[simp] theorem release_trace (c : Byte) (s : State) : (release c s).trace = s.trace ++ [.rel c] := rfl
@[simp] theorem release_responses (c : Byte) (s : State) : (release c s).responses = s.responses := rfl

/-! ### `delay` -/

@[simp] theorem delay_blk (w : WaitName) (d : Nat) (s : State) : (delay w d s).blk = s.blk := rfl
@[simp] theorem delay_policy (w : WaitName) (d : Nat) (s : State) : (delay w d s).policy = s.policy := rfl
@[simp] theorem delay_inputs (w : WaitName) (d : Nat) (s : State) : (delay w d s).inputs = s.inputs := rfl
@[simp] theorem delay_samples (w : WaitName) (d : Nat) (s : State) : (delay w d s).samples = s.samples := rfl
@[simp] theorem delay_store (w : WaitName) (d : Nat) (s : State) : (delay w d s).store = s.store := rfl
@[simp] theorem delay_draws (w : WaitName) (d : Nat) (s : State) : (delay w d s).draws = s.draws := rfl
@[simp] theorem delay_trace (w : WaitName) (d : Nat) (s : State) : (delay w d s).trace = s.trace ++ [.wait w d] := rfl
@[simp] theorem delay_responses (w : WaitName) (d : Nat) (s : State) : (delay w d s).responses = s.responses := rfl

/-! ### `critEnter` -/

@[simp] theorem critEnter_blk (s : State) : (critEnter s).blk = { s.blk with crit := true } := rfl
@[simp] theorem critEnter_policy (s : State) : (critEnter s).policy = s.policy := rfl
@[simp] theorem critEnter_inputs (s : State) : (critEnter s).inputs = s.inputs := rfl
@[simp] theorem critEnter_samples (s : State) : (critEnter s).samples = s.samples := rfl
@[simp] theorem critEnter_store (s : State) : (critEnter s).store = s.store := rfl
@[simp] theorem critEnter_draws (s : State) : (critEnter s).draws = s.draws := rfl
@[simp] theorem critEnter_trace (s : State) : (critEnter s).trace = s.trace ++ [.crit true] := rfl
@[simp] theorem critEnter_responses (s : State) : (critEnter s).responses = s.responses := rfl

/-! ### `critExit` -/

@[simp] theorem critExit_blk (s : State) : (critExit s).blk = { s.blk with crit := false } := rfl
@[simp] theorem critExit_policy (s : State) : (critExit s).policy = s.policy := rfl
@[simp] theorem critExit_inputs (s : State) : (critExit s).inputs = s.inputs := rfl
@[simp] theorem critExit_samples (s : State) : (critExit s).samples = s.samples := rfl
@[simp] theorem critExit_store (s : State) : (critExit s).store = s.store := rfl
@[simp] theorem critExit_draws (s : State) : (critExit s).draws = s.draws := rfl
@[simp] theorem critExit_trace (s : State) : (critExit s).trace = s.trace ++ [.crit false] := rfl
@[simp] theorem critExit_responses (s : State) : (critExit s).responses = s.responses := rfl

/-! ### `resetSearch` -/

@[simp] theorem resetSearch_blk (s : State) : (resetSearch s).blk = setSearchState ⟨0, 0, false, zeroIdent⟩ s.blk := rfl
@[simp] theorem resetSearch_policy (s : State) : (resetSearch s).policy = s.policy := rfl
@[simp] theorem resetSearch_inputs (s : State) : (resetSearch s).inputs = s.inputs := rfl
@[simp] theorem resetSearch_samples (s : State) : (resetSearch s).samples = s.samples := rfl
@[simp] theorem resetSearch_store (s : State) : (resetSearch s).store = s.store := rfl
@[simp] theorem resetSearch_draws (s : State) : (resetSearch s).draws = s.draws := rfl
@[simp] theorem resetSearch_trace (s : State) : (resetSearch s).trace = s.trace := rfl
@[simp] theorem resetSearch_responses (s : State) : (resetSearch s).responses = s.responses := rfl

/-! ### `forceReplay` -/

@[simp] theorem forceReplay_blk (s : State) : (forceReplay s).blk = { s.blk with ld := 64, ldf := false } := rfl
@[simp] theorem forceReplay_policy (s : State) : (forceReplay s).policy = s.policy := rfl
@[simp] theorem forceReplay_inputs (s : State) : (forceReplay s).inputs = s.inputs := rfl
@[simp] theorem forceReplay_samples (s : State) : (forceReplay s).samples = s.samples := rfl
@[simp] theorem forceReplay_store (s : State) : (forceReplay s).store = s.store := rfl
@[simp] theorem forceReplay_draws (s : State) : (forceReplay s).draws = s.draws := rfl
@[simp] theorem forceReplay_trace (s : State) : (forceReplay s).trace = s.trace := rfl
@[simp] theorem forceReplay_responses (s : State) : (forceReplay s).responses = s.responses := rfl

/-! ### `hardwareReset` -/

@[simp] theorem hardwareReset_blk (s : State) : (hardwareReset s).blk = Block.afterReset s.blk.lines.length (timingTableOf (Config.resetTiming s.draws)) := rfl
@[simp] theorem hardwareReset_policy (s : State) : (hardwareReset s).policy = s.policy := rfl
@[simp] theorem hardwareReset_inputs (s : State) : (hardwareReset s).inputs = s.inputs := rfl
@[simp] theorem hardwareReset_samples (s : State) : (hardwareReset s).samples = s.samples := rfl
@[simp] theorem hardwareReset_store (s : State) : (hardwareReset s).store = s.store := rfl
@[simp] theorem hardwareReset_draws (s : State) : (hardwareReset s).draws = s.draws + 1 := rfl
@[simp] theorem hardwareReset_trace (s : State) : (hardwareReset s).trace = [] := rfl
@[simp] theorem hardwareReset_responses (s : State) : (hardwareReset s).responses = s.responses := rfl

/-! ### `presentCommand` -/

@[simp] theorem presentCommand_blk (w : CmdWord) (s : State) : (presentCommand w s).blk = s.blk := rfl
@[simp] theorem presentCommand_policy (w : CmdWord) (s : State) : (presentCommand w s).policy = s.policy := rfl
@[simp] theorem presentCommand_inputs (w : CmdWord) (s : State) : (presentCommand w s).inputs = .command w :: s.inputs := rfl
@[simp] theorem presentCommand_samples (w : CmdWord) (s : State) : (presentCommand w s).samples = s.samples := rfl
@[simp] theorem presentCommand_store (w : CmdWord) (s : State) : (presentCommand w s).store = s.store := rfl
@[simp] theorem presentCommand_draws (w : CmdWord) (s : State) : (presentCommand w s).draws = s.draws := rfl
@[simp] theorem presentCommand_trace (w : CmdWord) (s : State) : (presentCommand w s).trace = s.trace := rfl
@[simp] theorem presentCommand_responses (w : CmdWord) (s : State) : (presentCommand w s).responses = s.responses := rfl

/-! ### `afterSamples` -/

@[simp] theorem afterSamples_blk (n : Nat) (s : State) : (afterSamples n s).blk = s.blk := rfl
@[simp] theorem afterSamples_policy (n : Nat) (s : State) : (afterSamples n s).policy = s.policy := rfl
@[simp] theorem afterSamples_inputs (n : Nat) (s : State) : (afterSamples n s).inputs = s.inputs := rfl
@[simp] theorem afterSamples_samples (n : Nat) (s : State) : (afterSamples n s).samples = s.samples.drop n := rfl
@[simp] theorem afterSamples_store (n : Nat) (s : State) : (afterSamples n s).store = s.store := rfl
@[simp] theorem afterSamples_draws (n : Nat) (s : State) : (afterSamples n s).draws = s.draws + (n - s.samples.length) := rfl
@[simp] theorem afterSamples_trace (n : Nat) (s : State) : (afterSamples n s).trace = s.trace := rfl
@[simp] theorem afterSamples_responses (n : Nat) (s : State) : (afterSamples n s).responses = s.responses := rfl

/-! ### `setDir` -/

@[simp] theorem setDir_ch (c : Byte) (d : Dir) (b : Block) : (setDir c d b).ch = b.ch := rfl
@[simp] theorem setDir_lines (c : Byte) (d : Dir) (b : Block) : (setDir c d b).lines = b.lines.modify c.toNat (fun l => { l with dir := d }) := rfl
@[simp] theorem setDir_id (c : Byte) (d : Dir) (b : Block) : (setDir c d b).id = b.id := rfl
@[simp] theorem setDir_ld (c : Byte) (d : Dir) (b : Block) : (setDir c d b).ld = b.ld := rfl
@[simp] theorem setDir_lfd (c : Byte) (d : Dir) (b : Block) : (setDir c d b).lfd = b.lfd := rfl
@[simp] theorem setDir_ldf (c : Byte) (d : Dir) (b : Block) : (setDir c d b).ldf = b.ldf := rfl
@[simp] theorem setDir_crcAcc (c : Byte) (d : Dir) (b : Block) : (setDir c d b).crcAcc = b.crcAcc := rfl
@[simp] theorem setDir_nz (c : Byte) (d : Dir) (b : Block) : (setDir c d b).nz = b.nz := rfl
@[simp] theorem setDir_lt (c : Byte) (d : Dir) (b : Block) : (setDir c d b).lt = b.lt := rfl
@[simp] theorem setDir_crit (c : Byte) (d : Dir) (b : Block) : (setDir c d b).crit = b.crit := rfl

/-! ### `setLvl` -/

@[simp] theorem setLvl_ch (c : Byte) (v : Level) (b : Block) : (setLvl c v b).ch = b.ch := rfl
@[simp] theorem setLvl_lines (c : Byte) (v : Level) (b : Block) : (setLvl c v b).lines = b.lines.modify c.toNat (fun l => { l with lvl := v }) := rfl
@[simp] theorem setLvl_id (c : Byte) (v : Level) (b : Block) : (setLvl c v b).id = b.id := rfl
@[simp] theorem setLvl_ld (c : Byte) (v : Level) (b : Block) : (setLvl c v b).ld = b.ld := rfl
@[simp] theorem setLvl_lfd (c : Byte) (v : Level) (b : Block) : (setLvl c v b).lfd = b.lfd := rfl
@[simp] theorem setLvl_ldf (c : Byte) (v : Level) (b : Block) : (setLvl c v b).ldf = b.ldf := rfl
@[simp] theorem setLvl_crcAcc (c : Byte) (v : Level) (b : Block) : (setLvl c v b).crcAcc = b.crcAcc := rfl
@[simp] theorem setLvl_nz (c : Byte) (v : Level) (b : Block) : (setLvl c v b).nz = b.nz := rfl
@[simp] theorem setLvl_lt (c : Byte) (v : Level) (b : Block) : (setLvl c v b).lt = b.lt := rfl
@[simp] theorem setLvl_crit (c : Byte) (v : Level) (b : Block) : (setLvl c v b).crit = b.crit := rfl

/-! ### `memWrite` -/

@[simp] theorem memWrite_ch (k : Nat) (v : Byte) (b : Block) : (memWrite k v b).ch = b.ch := rfl
@[simp] theorem memWrite_lines (k : Nat) (v : Byte) (b : Block) : (memWrite k v b).lines = b.lines := rfl
@[simp] theorem memWrite_id (k : Nat) (v : Byte) (b : Block) : (memWrite k v b).id = setIdByte b.id k v := rfl
@[simp] theorem memWrite_ld (k : Nat) (v : Byte) (b : Block) : (memWrite k v b).ld = b.ld := rfl
@[simp] theorem memWrite_lfd (k : Nat) (v : Byte) (b : Block) : (memWrite k v b).lfd = b.lfd := rfl
@[simp] theorem memWrite_ldf (k : Nat) (v : Byte) (b : Block) : (memWrite k v b).ldf = b.ldf := rfl
@[simp] theorem memWrite_crcAcc (k : Nat) (v : Byte) (b : Block) : (memWrite k v b).crcAcc = b.crcAcc := rfl
@[simp] theorem memWrite_nz (k : Nat) (v : Byte) (b : Block) : (memWrite k v b).nz = b.nz := rfl
@[simp] theorem memWrite_lt (k : Nat) (v : Byte) (b : Block) : (memWrite k v b).lt = b.lt := rfl
@[simp] theorem memWrite_crit (k : Nat) (v : Byte) (b : Block) : (memWrite k v b).crit = b.crit := rfl

/-! ### `setSearchState` -/

@[simp] theorem setSearchState_ch (c : SearchState) (b : Block) : (setSearchState c b).ch = b.ch := rfl
@[simp] theorem setSearchState_lines (c : SearchState) (b : Block) : (setSearchState c b).lines = b.lines := rfl
@[simp] theorem setSearchState_id (c : SearchState) (b : Block) : (setSearchState c b).id = c.id := rfl
@[simp] theorem setSearchState_ld (c : SearchState) (b : Block) : (setSearchState c b).ld = c.ld := rfl
@[simp] theorem setSearchState_lfd (c : SearchState) (b : Block) : (setSearchState c b).lfd = c.lfd := rfl
@[simp] theorem setSearchState_ldf (c : SearchState) (b : Block) : (setSearchState c b).ldf = c.ldf := rfl
@[simp] theorem setSearchState_crcAcc (c : SearchState) (b : Block) : (setSearchState c b).crcAcc = b.crcAcc := rfl
@[simp] theorem setSearchState_nz (c : SearchState) (b : Block) : (setSearchState c b).nz = b.nz := rfl
@[simp] theorem setSearchState_lt (c : SearchState) (b : Block) : (setSearchState c b).lt = b.lt := rfl
@[simp] theorem setSearchState_crit (c : SearchState) (b : Block) : (setSearchState c b).crit = b.crit := rfl

/-! ### `advanceCursor` -/

@[simp] theorem advanceCursor_ch (z : Nat) (b : Block) : (advanceCursor z b).ch = b.ch := rfl
@[simp] theorem advanceCursor_lines (z : Nat) (b : Block) : (advanceCursor z b).lines = b.lines := rfl
@[simp] theorem advanceCursor_id (z : Nat) (b : Block) : (advanceCursor z b).id = b.id := rfl
@[simp] theorem advanceCursor_ld (z : Nat) (b : Block) : (advanceCursor z b).ld = BitVec.ofNat 8 z := rfl
@[simp] theorem advanceCursor_lfd (z : Nat) (b : Block) : (advanceCursor z b).lfd = b.lfd := rfl
@[simp] theorem advanceCursor_ldf (z : Nat) (b : Block) : (advanceCursor z b).ldf = if z = 0 then true else b.ldf := rfl
@[simp] theorem advanceCursor_crcAcc (z : Nat) (b : Block) : (advanceCursor z b).crcAcc = b.crcAcc := rfl
@[simp] theorem advanceCursor_nz (z : Nat) (b : Block) : (advanceCursor z b).nz = b.nz := rfl
@[simp] theorem advanceCursor_lt (z : Nat) (b : Block) : (advanceCursor z b).lt = b.lt := rfl
@[simp] theorem advanceCursor_crit (z : Nat) (b : Block) : (advanceCursor z b).crit = b.crit := rfl

/-! ### `afterSlot` -/

@[simp] theorem afterSlot_ch (b : Block) : (afterSlot b).ch = b.ch := rfl
@[simp] theorem afterSlot_lines (b : Block) : (afterSlot b).lines = b.lines.modify b.ch.toNat (fun _ => LineDriver.released) := rfl
@[simp] theorem afterSlot_id (b : Block) : (afterSlot b).id = b.id := rfl
@[simp] theorem afterSlot_ld (b : Block) : (afterSlot b).ld = b.ld := rfl
@[simp] theorem afterSlot_lfd (b : Block) : (afterSlot b).lfd = b.lfd := rfl
@[simp] theorem afterSlot_ldf (b : Block) : (afterSlot b).ldf = b.ldf := rfl
@[simp] theorem afterSlot_crcAcc (b : Block) : (afterSlot b).crcAcc = b.crcAcc := rfl
@[simp] theorem afterSlot_nz (b : Block) : (afterSlot b).nz = b.nz := rfl
@[simp] theorem afterSlot_lt (b : Block) : (afterSlot b).lt = b.lt := rfl
@[simp] theorem afterSlot_crit (b : Block) : (afterSlot b).crit = b.crit := rfl

@[simp] theorem searchState_setSearchState (c : SearchState) (b : Block) : searchState (setSearchState c b) = c := rfl

@[simp] theorem setSearchState_searchState (b : Block) : setSearchState (searchState b) b = b := rfl

@[simp] theorem setSearchState_twice (c d : SearchState) (b : Block) :
    setSearchState c (setSearchState d b) = setSearchState c b := rfl

@[simp] theorem afterSlot_twice (b : Block) : afterSlot (afterSlot b) = afterSlot b := by
  simp [afterSlot, List.modify_modify_eq, Function.comp_def]

end Sys2Proof.Machine
end

