-- ==== Sys2Proof/Laws/Ops.lean ====
section
/-! SUPPORT. What each shared operation over the line can do, said once: its whole effect as one equation. -/

namespace Sys2Proof.Machine

/-! ### Raw samples -/

theorem lineIn_eq (s : State) :
    lineIn s = ((rawBits 1 s.samples s.draws).headD false, afterSamples 1 s) := by
  cases h : s.samples <;> simp [lineIn, h, rawBits, afterSamples]

theorem rawBits_succ (n : Nat) (l : List Bool) (d : Nat) :
    rawBits (n + 1) l d =
      (rawBits 1 l d).headD false :: rawBits n (l.drop 1) (d + (1 - l.length)) := by
  cases l <;> simp [rawBits, List.range'_succ]

theorem afterSamples_add (m n : Nat) (s : State) :
    afterSamples n (afterSamples m s) = afterSamples (m + n) s := by
  simp only [afterSamples, List.drop_drop, List.length_drop]
  congr 1
  omega

/-- Taking raw samples answers the environment's next bits and changes nothing but its position. -/
theorem rawSamples_eq (n : Nat) (s : State) :
    rawSamples n s = (rawBits n s.samples s.draws, afterSamples n s) := by
  induction n generalizing s with
  | zero => simp [rawSamples, rawBits, afterSamples]
  | succ n ih =>
    simp only [rawSamples, lineIn_eq, ih, afterSamples_add, Nat.add_comm 1 n]
    rw [rawBits_succ n]
    simp

theorem rawBits_length (n : Nat) (l : List Bool) (d : Nat) : (rawBits n l d).length = n := by
  simp [rawBits]; omega

/-- Where the environment's list is long enough, the raw samples are its first ones and no free value is drawn. -/
theorem rawBits_listed (n : Nat) (l : List Bool) (d : Nat) (h : n ≤ l.length) : rawBits n l d = l.take n := by
  simp [rawBits, Nat.sub_eq_zero_of_le h]

theorem afterSamples_listed (n : Nat) (s : State) (h : n ≤ s.samples.length) :
    afterSamples n s = { s with samples := s.samples.drop n } := by
  simp [afterSamples, Nat.sub_eq_zero_of_le h]

theorem sample_eq (c : Byte) (s : State) :
    sample c s = (majority (rawBits 10 s.samples s.draws),
      emit (.samp c (rawBits 10 s.samples s.draws) (majority (rawBits 10 s.samples s.draws))) (afterSamples 10 s)) := by
  simp [sample, rawSamples_eq, Config.nSamples]

/-! ### Slots -/

theorem driver_after_slot (l : List LineDriver) (k : Nat) :
    ((l.modify k (fun x => { x with lvl := .low })).modify k (fun x => { x with dir := .out })).modify k
      (fun x => { x with dir := .inp }) = l.modify k (fun _ => LineDriver.released) := by
  simp [List.modify_modify_eq, Function.comp_def, LineDriver.released]

theorem setDir_after_driveLow (b : Block) :
    setDir b.ch .inp (setDir b.ch .out (setLvl b.ch .low b)) = afterSlot b := by
  simp [setDir, setLvl, afterSlot, driver_after_slot]

/-- `BusReset()`: presence from the ten samples, the six events, the line released (R100). -/
theorem busReset_eq (s : State) :
    busReset s = (!majority (rawBits 10 s.samples s.draws),
      { afterSamples 10 s with
        blk := afterSlot s.blk
        trace := s.trace ++ resetEvents s.blk (rawBits 10 s.samples s.draws) }) := by
  simp only [busReset, sample_eq, presence]
  congr 1
  simp only [delay, emit, release, driveLow, afterSamples, setDir_after_driveLow, resetEvents]
  simp

/-- `WriteBit(b)`: the four events, the line released (R102). -/
theorem writeBit_eq (b : Bool) (s : State) :
    writeBit b s = { s with blk := afterSlot s.blk, trace := s.trace ++ writeEvents s.blk b } := by
  cases b <;>
    simp [writeBit, delay, emit, release, driveLow, setDir_after_driveLow, writeEvents, writeRest]

/-- `ReadBit()`: the filtered level of the ten samples, the six events, the line released (R104). -/
theorem readBit_eq (s : State) :
    readBit s = (majority (rawBits 10 s.samples s.draws),
      { afterSamples 10 s with
        blk := afterSlot s.blk
        trace := s.trace ++ readEvents s.blk (rawBits 10 s.samples s.draws) }) := by
  simp only [readBit, sample_eq]
  congr 1
  simp only [delay, emit, release, driveLow, afterSamples, setDir_after_driveLow, readEvents, readRest, Config.tUnit]
  simp

theorem writeEvents_afterSlot (b : Block) : writeEvents (afterSlot b) = writeEvents b := rfl

theorem readEvents_afterSlot (b : Block) : readEvents (afterSlot b) = readEvents b := rfl

/-- The write slots of some bits: the events of each in order; with no bit nothing happens at all. -/
theorem writeBits_eq (bits : List Bool) (s : State) :
    writeBits bits s =
      if bits = [] then s
      else { s with blk := afterSlot s.blk, trace := s.trace ++ bits.flatMap (writeEvents s.blk) } := by
  induction bits generalizing s with
  | nil => rfl
  | cons b bs ih =>
    simp only [writeBits, writeBit_eq, ih]
    by_cases h : bs = []
    · simp [h]
    · simp [h, writeEvents_afterSlot]

theorem rawBits_add (m n : Nat) (l : List Bool) (d : Nat) :
    rawBits (m + n) l d = rawBits m l d ++ rawBits n (l.drop m) (d + (m - l.length)) := by
  induction m generalizing l d with
  | zero => simp [rawBits]
  | succ m ih =>
    have hd : d + (1 - l.length) + (m - (l.length - 1)) = d + (m + 1 - l.length) := by omega
    rw [Nat.add_right_comm, rawBits_succ, ih, rawBits_succ m]
    simp only [List.drop_drop, List.length_drop, List.cons_append, hd, Nat.add_comm 1 m]

theorem slotSamples_first (a r : List Bool) (h : a.length = 10) : slotSamples (a ++ r) 0 = a := by
  simp [slotSamples, ← h]

theorem slotSamples_later (a r : List Bool) (h : a.length = 10) (i : Nat) :
    slotSamples (a ++ r) (i + 1) = slotSamples r i := by
  have hk : 10 * (i + 1) = a.length + 10 * i := by omega
  rw [slotSamples, slotSamples, hk, List.drop_append, List.drop_eq_nil_of_le (by omega)]
  simp

/-- `n` read slots: the filtered level of each slot's ten samples, the events of each in order. -/
theorem readBits_eq (n : Nat) (s : State) :
    readBits n s = ((List.range n).map (fun i => majority (slotSamples (rawBits (10 * n) s.samples s.draws) i)),
      { afterSamples (10 * n) s with
        blk := if n = 0 then s.blk else afterSlot s.blk
        trace := s.trace ++ (List.range n).flatMap
          (fun i => readEvents s.blk (slotSamples (rawBits (10 * n) s.samples s.draws) i)) }) := by
  induction n generalizing s with
  | zero => simp [readBits, afterSamples]
  | succ n ih =>
    have hr : rawBits (10 * (n + 1)) s.samples s.draws = rawBits 10 s.samples s.draws ++
        rawBits (10 * n) (s.samples.drop 10) (s.draws + (10 - s.samples.length)) := by
      rw [← rawBits_add]; congr 1; omega
    have hl := rawBits_length 10 s.samples s.draws
    simp only [readBits, readBit_eq, ih, hr, List.range_succ_eq_map, List.map_cons, List.flatMap_cons, List.map_map,
      List.flatMap_map, slotSamples_first _ _ hl, Function.comp_def, slotSamples_later _ _ hl, readEvents_afterSlot]
    simp only [afterSamples, List.drop_drop, List.length_drop, afterSlot_twice, List.append_assoc]
    have h10 : 10 + 10 * n = 10 * (n + 1) := by omega
    have hd : s.draws + (10 - s.samples.length) + (10 * n - (s.samples.length - 10)) =
        s.draws + (10 * (n + 1) - s.samples.length) := by omega
    simp [h10, hd]

theorem byteOfBits_wire (b0 b1 b2 b3 b4 b5 b6 b7 : Bool) (i : Nat) (h : i < 8) :
    (byteOfBits [b0, b1, b2, b3, b4, b5, b6, b7]).getLsbD i = [b0, b1, b2, b3, b4, b5, b6, b7].getD i false := by
  have : ∀ b0 b1 b2 b3 b4 b5 b6 b7 : Bool, ∀ i : Fin 8,
      (byteOfBits [b0, b1, b2, b3, b4, b5, b6, b7]).getLsbD i =
        [b0, b1, b2, b3, b4, b5, b6, b7].getD i false := by decide
  exact this b0 b1 b2 b3 b4 b5 b6 b7 ⟨i, h⟩

/-- The byte of eight bits has bit `i` of the list as its bit `i` (20_memory.md R43). -/
theorem byteOfBits_getLsbD (l : List Bool) (hl : l.length = 8) (i : Nat) (h : i < 8) :
    (byteOfBits l).getLsbD i = l.getD i false := by
  match l, hl with
  | [b0, b1, b2, b3, b4, b5, b6, b7], _ => exact byteOfBits_wire b0 b1 b2 b3 b4 b5 b6 b7 i h

/-- `WriteByte(v)`: the bracketed events of eight write slots, the line released, `CRIT` low (R106). -/
theorem writeByte_eq (v : Byte) (s : State) :
    writeByte v s = { s with
      blk := { afterSlot s.blk with crit := false }
      trace := s.trace ++ writeByteEvents s.blk v } := by
  have hw : wireBits v ≠ [] := by simp [wireBits]
  simp only [writeByte, writeBits_eq, hw, if_false, critExit, critEnter, emit]
  simp only [afterSlot, writeByteEvents, wireBits, List.flatMap_map]
  simp only [byteBit, List.append_assoc, List.singleton_append]
  rfl

/-- `ReadByte()`: bit `i` of the result is the filtered level of slot `i`; the bracketed events; the line released,
`CRIT` low (R107). -/
theorem readByte_eq (s : State) :
    readByte s =
      (byteOfBits ((List.range 8).map (fun i => majority (slotSamples (rawBits 80 s.samples s.draws) i))),
      { afterSamples 80 s with
        blk := { afterSlot s.blk with crit := false }
        trace := s.trace ++ readByteEvents s.blk (rawBits 80 s.samples s.draws) }) := by
  simp only [readByte, readBits_eq, critExit, critEnter, emit]
  simp only [afterSlot, readByteEvents, afterSamples, List.append_assoc, List.singleton_append]
  rfl

end Sys2Proof.Machine
end

