-- ==== Sys2Proof/Laws/PerInstr.lean ====
section
/-! SUPPORT. A statement for every command, made per constructor: the family `RowSelect` says that the encoding of a
well-formed command selects the row of its mnemonic in the opcode map of spec/30_encoding.md R63. -/

namespace Sys2Proof.Laws

/-- The command's word selects its row of R63's table. -/
def RowSelect.Statement (i : Instr) : Prop :=
  i.WellFormed → ∃ row ∈ opcodeTable, row.mnemonic = i.mnemonic ∧ row.selects (encode i) = true

/-- A row selects a word by its three fields. -/
theorem row_selects (name : String) (p m op a b : _) (h1 : op &&& opField m = opField p)
    (h2 : a &&& aField m = aField p) (h3 : b &&& bField m = bField p) :
    (OpcodeRow.mk name p m none).selects (cmdWord op a b) = true := by
  have : cmdWord op a b &&& m = p := (masked_iff _ _ _).mpr (by simpa using ⟨h1, h2, h3⟩)
  simp [OpcodeRow.selects, this]

theorem masked_all (v : Byte) : v &&& 0 = 0 := by simp

theorem masked_index (k : Byte) (h : k.toNat ≤ 7) : k &&& 0xF8 = 0 := by
  revert k; decide

theorem masked_bit (x : Byte) (h : x.toNat ≤ 1) : x &&& 0xFE = 0 := by
  revert x; decide

theorem RowSelect.init : RowSelect.Statement .init :=
  fun _ => ⟨⟨"INIT", 0x010000, 0xFFFFFF, none⟩, by decide, rfl, by decide⟩

theorem RowSelect.selch (n : Byte) : RowSelect.Statement (.selch n) :=
  fun _ => ⟨⟨"SELCH", 0x020000, 0xFF00FF, none⟩, by decide, rfl,
    row_selects _ _ _ _ _ _ (by decide) (masked_all n) (by decide)⟩

theorem RowSelect.waitconv : RowSelect.Statement .waitconv :=
  fun _ => ⟨⟨"WAITCONV", 0x030000, 0xFFFFFF, none⟩, by decide, rfl, by decide⟩

theorem RowSelect.owreset : RowSelect.Statement .owreset :=
  fun _ => ⟨⟨"OWRESET", 0x100000, 0xFFFFFF, none⟩, by decide, rfl, by decide⟩

theorem RowSelect.owwbit (x : Byte) : RowSelect.Statement (.owwbit x) :=
  fun h => ⟨⟨"OWWBIT", 0x110000, 0xFFFFFE, none⟩, by decide, rfl,
    row_selects _ _ _ _ _ _ (by decide) (by decide) (masked_bit x (of_decide_eq_true h))⟩

theorem RowSelect.owrbit : RowSelect.Statement .owrbit :=
  fun _ => ⟨⟨"OWRBIT", 0x120000, 0xFFFFFF, none⟩, by decide, rfl, by decide⟩

theorem RowSelect.owwbyte (v : Byte) : RowSelect.Statement (.owwbyte v) :=
  fun _ => ⟨⟨"OWWBYTE", 0x130000, 0xFFFF00, none⟩, by decide, rfl,
    row_selects _ _ _ _ _ _ (by decide) (by decide) (masked_all v)⟩

theorem RowSelect.owrbyte : RowSelect.Statement .owrbyte :=
  fun _ => ⟨⟨"OWRBYTE", 0x140000, 0xFFFFFF, none⟩, by decide, rfl, by decide⟩

theorem RowSelect.crcinit : RowSelect.Statement .crcinit :=
  fun _ => ⟨⟨"CRCINIT", 0x200000, 0xFFFFFF, none⟩, by decide, rfl, by decide⟩

theorem RowSelect.crcupd (v : Byte) : RowSelect.Statement (.crcupd v) :=
  fun _ => ⟨⟨"CRCUPD", 0x210000, 0xFFFF00, none⟩, by decide, rfl,
    row_selects _ _ _ _ _ _ (by decide) (by decide) (masked_all v)⟩

theorem RowSelect.crcchk (v : Byte) : RowSelect.Statement (.crcchk v) :=
  fun _ => ⟨⟨"CRCCHK", 0x220000, 0xFFFF00, none⟩, by decide, rfl,
    row_selects _ _ _ _ _ _ (by decide) (by decide) (masked_all v)⟩

theorem RowSelect.srchfirst : RowSelect.Statement .srchfirst :=
  fun _ => ⟨⟨"SRCHFIRST", 0x300000, 0xFFFFFF, none⟩, by decide, rfl, by decide⟩

theorem RowSelect.srchnext : RowSelect.Statement .srchnext :=
  fun _ => ⟨⟨"SRCHNEXT", 0x310000, 0xFFFFFF, none⟩, by decide, rfl, by decide⟩

theorem RowSelect.srchverify : RowSelect.Statement .srchverify :=
  fun _ => ⟨⟨"SRCHVERIFY", 0x320000, 0xFFFFFF, none⟩, by decide, rfl, by decide⟩

theorem RowSelect.idrd (k : Byte) : RowSelect.Statement (.idrd k) :=
  fun h => ⟨⟨"IDRD", 0x400000, 0xFFF8FF, none⟩, by decide, rfl,
    row_selects _ _ _ _ _ _ (by decide) (masked_index k (of_decide_eq_true h)) (by decide)⟩

theorem RowSelect.idwr (k v : Byte) : RowSelect.Statement (.idwr k v) :=
  fun h => ⟨⟨"IDWR", 0x410000, 0xFFF800, none⟩, by decide, rfl,
    row_selects _ _ _ _ _ _ (by decide) (masked_index k (of_decide_eq_true h)) (masked_all v)⟩

theorem RowSelect.strd (sel : Byte) : RowSelect.Statement (.strd sel) := by
  intro h
  have h5 : sel.toNat ≤ 5 := of_decide_eq_true h
  refine ⟨⟨"STRD", 0x420000, 0xFFF8FF, some 5⟩, by decide, rfl, ?_⟩
  have hm := row_selects "STRD" 0x420000 0xFFF8FF 0x42 sel 0 (by decide) (masked_index sel (by omega)) (by decide)
  simpa [OpcodeRow.selects, encode, h5] using hm

end Sys2Proof.Laws
end

