-- ==== Sys2Proof/Laws/Search.lean ====
section
/-! SUPPORT. What the bit and byte procedures and the search traversal leave alone, said once, and what one position of
the traversal does. -/

namespace Sys2Proof.Machine

/-- What every operation on the bus, the traversal included, leaves alone: the registers it does not name, the inputs
it does not consume, every line but the active one; and what it adds to `TRACE` concerns the active line only. -/
structure BusFrame (s t : State) : Prop where
  ch        : t.blk.ch = s.blk.ch
  lt        : t.blk.lt = s.blk.lt
  crcAcc    : t.blk.crcAcc = s.blk.crcAcc
  nz        : t.blk.nz = s.blk.nz
  policy    : t.policy = s.policy
  inputs    : t.inputs = s.inputs
  store     : t.store = s.store
  responses : t.responses = s.responses
  lines     : t.blk.lines = s.blk.lines ∨ t.blk.lines = (afterSlot s.blk).lines
  crit      : t.blk.crit = s.blk.crit ∨ t.blk.crit = false
  trace     : ∃ es, t.trace = s.trace ++ es ∧ ∀ e ∈ es, eventOn s.blk.ch e

theorem BusFrame.refl (s : State) : BusFrame s s :=
  ⟨rfl, rfl, rfl, rfl, rfl, rfl, rfl, rfl, .inl rfl, .inl rfl, [], by simp⟩

theorem BusFrame.trans {s t u : State} (h : BusFrame s t) (k : BusFrame t u) : BusFrame s u where
  ch := k.ch.trans h.ch
  lt := k.lt.trans h.lt
  crcAcc := k.crcAcc.trans h.crcAcc
  nz := k.nz.trans h.nz
  policy := k.policy.trans h.policy
  inputs := k.inputs.trans h.inputs
  store := k.store.trans h.store
  responses := k.responses.trans h.responses
  lines := by
    rcases k.lines with e | e
    · rw [e]; exact h.lines
    · right
      rcases h.lines with e' | e' <;>
        simp [e, afterSlot, h.ch, e', List.modify_modify_eq, Function.comp_def]
  crit := by
    rcases k.crit with e | e
    · rw [e]; exact h.crit
    · exact .inr e
  trace := by
    obtain ⟨es, e1, e2⟩ := h.trace
    obtain ⟨fs, f1, f2⟩ := k.trace
    refine ⟨es ++ fs, by simp [f1, e1], ?_⟩
    intro e he
    rcases List.mem_append.mp he with h' | h'
    · exact e2 e h'
    · have := f2 e h'; rwa [h.ch] at this

theorem writeEvents_on (b : Block) (x : Bool) : ∀ e ∈ writeEvents b x, eventOn b.ch e := by
  cases x <;> simp [writeEvents, eventOn]

theorem readEvents_on (b : Block) (r : List Bool) : ∀ e ∈ readEvents b r, eventOn b.ch e := by
  simp [readEvents, eventOn]

theorem busReset_frame (s : State) : BusFrame s (busReset s).2 := by
  rw [busReset_eq]
  exact ⟨rfl, rfl, rfl, rfl, rfl, rfl, rfl, rfl, .inr rfl, .inl rfl, _, rfl, by simp [resetEvents, eventOn]⟩

theorem writeBit_frame (b : Bool) (s : State) : BusFrame s (writeBit b s) := by
  rw [writeBit_eq]
  exact ⟨rfl, rfl, rfl, rfl, rfl, rfl, rfl, rfl, .inr rfl, .inl rfl, _, rfl, writeEvents_on _ _⟩

theorem readBit_frame (s : State) : BusFrame s (readBit s).2 := by
  rw [readBit_eq]
  exact ⟨rfl, rfl, rfl, rfl, rfl, rfl, rfl, rfl, .inr rfl, .inl rfl, _, rfl, readEvents_on _ _⟩

theorem writeByte_frame (v : Byte) (s : State) : BusFrame s (writeByte v s) := by
  rw [writeByte_eq]
  refine ⟨rfl, rfl, rfl, rfl, rfl, rfl, rfl, rfl, .inr rfl, .inr rfl, _, rfl, ?_⟩
  simp only [writeByteEvents, List.cons_append, List.mem_cons, List.mem_append, List.mem_flatMap]
  rintro e (rfl | ⟨_, _, h⟩ | rfl | h)
  · trivial
  · exact writeEvents_on _ _ e h
  · trivial
  · cases h

theorem readByte_frame (s : State) : BusFrame s (readByte s).2 := by
  rw [readByte_eq]
  refine ⟨rfl, rfl, rfl, rfl, rfl, rfl, rfl, rfl, .inr rfl, .inr rfl, _, rfl, ?_⟩
  simp only [readByteEvents, List.cons_append, List.mem_cons, List.mem_append, List.mem_flatMap]
  rintro e (rfl | ⟨_, _, h⟩ | rfl | h)
  · trivial
  · exact readEvents_on _ _ e h
  · trivial
  · cases h

/-- A change of `SearchState` alone is in the frame. -/
theorem setSearchState_frame (c : SearchState) (s : State) :
    BusFrame s { s with blk := setSearchState c s.blk } :=
  ⟨rfl, rfl, rfl, rfl, rfl, rfl, rfl, rfl, .inl rfl, .inl rfl, [], by simp⟩

theorem resetSearch_frame (s : State) : BusFrame s (resetSearch s) := setSearchState_frame _ s

theorem recordDirection_block (idb cmp dir : Bool) (t : Traversal) (b : Block) :
    (recordDirection idb cmp dir t b).2 =
      setSearchState ⟨b.ld, (recordDirection idb cmp dir t b).2.lfd, b.ldf, setIdBit b.id t.n dir⟩ b := rfl

/-- One position of the traversal: two read slots; then, unless both bits are 1, the direction recorded and one write
slot (R141, lines 10 to 27). -/
theorem searchPosition_cases (t : Traversal) (s : State) :
    let idb := (readBit s).1
    let s1 := (readBit s).2
    let cmp := (readBit s1).1
    let s2 := (readBit s1).2
    let dir := searchDirection s.blk.ld s.blk.id t.n idb cmp
    searchPosition t s =
      if idb && cmp then ({ t with abort := true }, s2)
      else ((recordDirection idb cmp dir t s2.blk).1,
        writeBit dir { s2 with blk := (recordDirection idb cmp dir t s2.blk).2 }) := by
  simp only [searchPosition, readBit_eq]
  split <;> rfl

theorem searchPosition_frame (t : Traversal) (s : State) : BusFrame s (searchPosition t s).2 := by
  have h12 := (readBit_frame s).trans (readBit_frame (readBit s).2)
  rw [searchPosition_cases]
  split
  · exact h12
  · rw [recordDirection_block]
    exact (h12.trans (setSearchState_frame _ _)).trans (writeBit_frame _ _)

theorem searchLoop_frame (k : Nat) (t : Traversal) (s : State) : BusFrame s (searchLoop k t s).2 := by
  induction k generalizing t s with
  | zero => exact BusFrame.refl s
  | succ k ih =>
    simp only [searchLoop]
    split
    · exact searchPosition_frame t s
    · exact (searchPosition_frame t s).trans (ih _ _)

theorem afterExhaustion_frame (s : State) : BusFrame s (afterExhaustion s) := by
  unfold afterExhaustion
  split
  · exact BusFrame.refl s
  · exact resetSearch_frame s

theorem searchVerdict_frame (t : Traversal) (s : State) : BusFrame s (searchVerdict t s).2 := by
  have ha : BusFrame s { s with blk := advanceCursor t.lastZero s.blk } :=
    ⟨rfl, rfl, rfl, rfl, rfl, rfl, rfl, rfl, .inl rfl, .inl rfl, [], by simp⟩
  unfold searchVerdict
  split
  · exact resetSearch_frame s
  · split
    · exact resetSearch_frame s
    · dsimp only
      split
      · exact ha.trans (resetSearch_frame _)
      · exact ha

/-- The verdict's outcomes (R141, lines 28 to 36). -/
theorem searchVerdict_outcome (t : Traversal) (s : State) :
    (searchVerdict t s).1 = (true, .ok) ∨ ∃ c, (searchVerdict t s).1 = (false, c) ∧
      (c = .noResponse ∨ c = .crcMismatch ∨ c = .zeroPayload) := by
  unfold searchVerdict
  split
  · exact .inr ⟨_, rfl, by simp⟩
  · split
    · exact .inr ⟨_, rfl, by simp⟩
    · dsimp only
      split
      · exact .inr ⟨_, rfl, by simp⟩
      · exact .inl rfl

/-- The traversal's four ways (R141): exhausted, no presence, or a verdict on the loop's end. -/
theorem searchTraverse_cases (s : State) :
    (s.blk.ldf = true ∧ searchTraverse s = ((false, .searchExhausted), afterExhaustion s)) ∨
    (s.blk.ldf = false ∧ (busReset s).1 = false ∧
      searchTraverse s = ((false, .noPresence), resetSearch (busReset s).2)) ∨
    (s.blk.ldf = false ∧ (busReset s).1 = true ∧ ∃ t s2,
      searchLoop 64 traversalStart (writeByte Config.cmdSearchRom (busReset s).2) = (t, s2) ∧
      searchTraverse s = searchVerdict t s2) := by
  unfold searchTraverse
  cases hf : s.blk.ldf with
  | true => exact .inl ⟨rfl, if_pos rfl⟩
  | false =>
    rw [if_neg (by simp)]
    rcases hb : busReset s with ⟨p, s1⟩
    cases p with
    | false => exact .inr (.inl ⟨rfl, rfl, rfl⟩)
    | true =>
      rcases hl : searchLoop 64 traversalStart (writeByte Config.cmdSearchRom s1) with ⟨t, s2⟩
      exact .inr (.inr ⟨rfl, rfl, t, s2, rfl, by dsimp only; rw [hl]⟩)

/-- The traversal leaves `CH`, `LT`, the validator, the other lines and the inputs it does not consume alone. -/
theorem searchTraverse_frame (s : State) : BusFrame s (searchTraverse s).2 := by
  have hb := busReset_frame s
  obtain ⟨-, e⟩ | ⟨-, -, e⟩ | ⟨-, -, t, s2, hl, e⟩ := searchTraverse_cases s
  · rw [e]; exact afterExhaustion_frame s
  · rw [e]; exact hb.trans (resetSearch_frame _)
  · have hs := searchLoop_frame 64 traversalStart (writeByte Config.cmdSearchRom (busReset s).2)
    rw [hl] at hs
    rw [e]
    exact ((hb.trans (writeByte_frame _ _)).trans hs).trans (searchVerdict_frame t s2)

/-- The outcomes of a traversal; a device is reported exactly with `OK` (R141). -/
theorem searchTraverse_outcome (s : State) :
    (searchTraverse s).1 = (true, .ok) ∨ ∃ c, (searchTraverse s).1 = (false, c) ∧
      (c = .searchExhausted ∧ s.blk.ldf = true ∨ c = .noPresence ∨ c = .noResponse ∨ c = .crcMismatch ∨
        c = .zeroPayload) := by
  obtain ⟨hf, e⟩ | ⟨-, -, e⟩ | ⟨-, -, t, s2, -, e⟩ := searchTraverse_cases s
  · exact .inr ⟨_, by rw [e], .inl ⟨rfl, hf⟩⟩
  · exact .inr ⟨_, by rw [e], by simp⟩
  · rw [e]
    obtain h | ⟨c, h, hc⟩ := searchVerdict_outcome t s2
    · exact .inl h
    · exact .inr ⟨c, h, .inr (.inr hc)⟩

end Sys2Proof.Machine
end

