-- ==== Sys2Proof/Tests/Slice0.lean ====
section
/-! SUPPORT. Tests and witnesses. Expected results are those of spec/95_test_vectors.md (the vector is named) or written
out by hand from the rule named. -/

namespace Sys2Proof.Tests

open Sys2Proof Sys2Proof.Machine

/-! ### Helpers -/

/-- The next state, if there is one. -/
def after (o : Host.Outcome State Fault Refusal) : Option State :=
  match o with
  | .next t => some t
  | .fault _ => none
  | .refused _ => none

/-- `LT` as after V-LINE-4. -/
def benchTiming : TimingTable Duration := ⟨750000, 480, 70, 410, 6, 70, 9, 70⟩

/-- The registers after reset with two channels and the timing of V-LINE-4. -/
def benchBlock : Block := Block.afterReset 2 benchTiming

/-- A small state: these registers, and a line that answers these filtered levels without noise. -/
def bench (b : Block) (levels : List Bool) : State :=
  { blk := b, policy := .sticky, inputs := [], samples := noiseFree levels, store := [], draws := 0, trace := []
    responses := [] }

/-- Devices of 95_test_vectors.md, section 2. -/
def devD1 : Ident := #v[0x28, 0xFF, 0x4C, 0x1B, 0x00, 0x16, 0x03, 0x88]
def devD2 : Ident := #v[0x10, 0xA1, 0xB2, 0xC3, 0x00, 0x08, 0x00, 0x9B]
def devD3 : Ident := #v[0x26, 0x11, 0x22, 0x33, 0x00, 0x00, 0x00, 0xB6]
def devD4 : Ident := #v[0x28, 0xFF, 0x4C, 0x1B, 0x00, 0x16, 0x04, 0x0B]

/-- The bench registers with this search cursor. -/
def withCursor (ld lfd : Byte) (ldf : Bool) (id : Ident) : Block := setSearchState ⟨ld, lfd, ldf, id⟩ benchBlock

/-- The responses and the search cursor after an outcome. -/
def searchView (o : Host.Outcome State Fault Refusal) : Option (List Response × Byte × Byte × Bool × List Byte) :=
  (after o).map (fun t => (t.responses, t.blk.ld, t.blk.lfd, t.blk.ldf, t.blk.id.toList))

/-- The responses and the events after an outcome. -/
def busView (o : Host.Outcome State Fault Refusal) : Option (List Response × List LineEvent) :=
  (after o).map (fun t => (t.responses, t.trace))

/-! ### Decoding: one word of every command, written out from 30_encoding.md R63 (V-ENC where it gives the word) -/

theorem test_decode_init : decode 0x010000 = .ok .init := by decide
theorem test_decode_selch : decode 0x02FF00 = .ok (.selch 255) := by decide
theorem test_decode_waitconv : decode 0x030000 = .ok .waitconv := by decide
theorem test_decode_owreset : decode 0x100000 = .ok .owreset := by decide
theorem test_decode_owwbit : decode 0x110001 = .ok (.owwbit 1) := by decide
theorem test_decode_owrbit : decode 0x120000 = .ok .owrbit := by decide
theorem test_decode_owwbyte : decode 0x1300F0 = .ok (.owwbyte 0xF0) := by decide
theorem test_decode_owrbyte : decode 0x140000 = .ok .owrbyte := by decide
theorem test_decode_crcinit : decode 0x200000 = .ok .crcinit := by decide
theorem test_decode_crcupd : decode 0x210028 = .ok (.crcupd 0x28) := by decide
theorem test_decode_crcchk : decode 0x2200A2 = .ok (.crcchk 0xA2) := by decide
theorem test_decode_srchfirst : decode 0x300000 = .ok .srchfirst := by decide
theorem test_decode_srchnext : decode 0x310000 = .ok .srchnext := by decide
theorem test_decode_srchverify : decode 0x320000 = .ok .srchverify := by decide
theorem test_decode_idrd : decode 0x400700 = .ok (.idrd 7) := by decide
theorem test_decode_idwr : decode 0x410528 = .ok (.idwr 5 0x28) := by decide
theorem test_decode_strd : decode 0x420500 = .ok (.strd 5) := by decide

/-- V-ENC-5, 7, 10, 12, 15, 16, 17, 18. -/
theorem test_decode_illegal :
    decode 0x110002 = .error .bitOperand ∧ decode 0x130100 = .error .unusedField ∧
    decode 0x300001 = .error .unusedField ∧ decode 0x400800 = .error .indexRange ∧
    decode 0x420600 = .error .selectRange ∧ decode 0x000000 = .error .unknownOp ∧
    decode 0xFF0000 = .error .unknownOp ∧ decode 0x150000 = .error .unknownOp := by decide

theorem test_decodeTableWord : decodeTableWord 24 0x410528 = some (.idwr 5 0x28) := by decide

/-- Six hexadecimal digits (R66), the encodings of P1 and V-HOST-4. -/
theorem test_encode_words :
    encode (.selch 1) = 0x020100 ∧ encode (.idwr 0 0x28) = 0x410028 ∧ encode (.crcchk 0x88) = 0x220088 := by decide

/-- No two rows of the opcode map have a word in common: where both masks look, they ask for different bits. -/
theorem test_opcode_rows_disjoint :
    opcodeTable.Pairwise (fun p q => p.pattern &&& q.mask &&& p.mask ≠ q.pattern &&& p.mask &&& q.mask) := by decide

/-! ### Well-formedness: one ill-formed term for each check, refused -/

theorem test_wf_refuses_bit_operand : (Instr.owwbit 2).wf = false := by decide
theorem test_wf_refuses_read_index : (Instr.idrd 8).wf = false := by decide
theorem test_wf_refuses_write_index : (Instr.idwr 8 0).wf = false := by decide
theorem test_wf_refuses_select : (Instr.strd 6).wf = false := by decide

/-! ### Line control (95_test_vectors.md, section 3.2) -/

/-- V-LINE-1. -/
theorem test_selch_in_range :
    (after (exec (.selch 1) (bench benchBlock []))).map (fun t => (t.blk.ch, t.responses, t.trace)) =
      some (1, [⟨.ok, 1⟩], []) := by decide

/-- V-LINE-3: `n = N_CHANNELS` is out of range. -/
theorem test_selch_out_of_range :
    (after (exec (.selch 2) (bench { benchBlock with ch := 1 } []))).map (fun t => (t.blk.ch, t.responses)) =
      some (1, [⟨.ok, 1⟩]) := by decide

/-- V-LINE-4, with the identity for `DELAY_CAL` as the vector has it. -/
theorem test_init_timing :
    liveTiming (fun _ v => v) ⟨750000, 480, 70, 410, 6, 70, 9, 70⟩ = benchTiming := by decide

/-- V-LINE-4b. -/
theorem test_waitconv : busView (exec .waitconv (bench benchBlock [])) = some ([⟨.ok, 0⟩], [.wait .conv 750000]) := by
  decide

/-- V-LINE-7, V-LINE-8, V-LINE-9: six, four and five high samples. -/
theorem test_majority :
    majority [true, true, false, true, true, true, false, true, false, false] = true ∧
    majority [false, false, true, false, false, false, true, false, true, true] = false ∧
    majority [true, false, true, false, true, false, true, false, true, false] = false := by decide

/-! ### Bit and byte transactions (section 3.3) -/

/-- V-BIT-1. -/
theorem test_owreset_present :
    busView (exec .owreset (bench benchBlock [false])) = some ([⟨.ok, 1⟩],
      [.low 0, .wait .resetTx 480, .rel 0, .wait .resetDelay 70, .samp 0 (steady false) false, .wait .resetRx 410]) := by
  decide

/-- V-BIT-2. -/
theorem test_owreset_empty :
    (after (exec .owreset (bench benchBlock [true]))).map (·.responses) = some [⟨.noPresence, 0⟩] := by decide

/-- V-BIT-3. -/
theorem test_owwbit_one :
    busView (exec (.owwbit 1) (bench benchBlock [])) = some ([⟨.ok, 0⟩],
      [.low 0, .wait .writeLow 6, .rel 0, .wait .writeRest 64]) := by decide

/-- V-BIT-4b: truncated subtraction in a misconfigured slot. -/
theorem test_owwbit_zero_truncated :
    busView (exec (.owwbit 0) (bench { benchBlock with lt := { benchTiming with writeLow := 80 } } [])) =
      some ([⟨.ok, 0⟩], [.low 0, .wait .writeLow 80, .wait .writeRest 0, .rel 0]) := by decide

/-- V-BIT-5. -/
theorem test_owrbit_idle :
    busView (exec .owrbit (bench benchBlock [true])) = some ([⟨.ok, 1⟩],
      [.low 0, .wait .readLow 1, .rel 0, .wait .readSamp 9, .samp 0 (steady true) true, .wait .readRest 60]) := by decide

/-- V-BIT-6: 34 events, the fifth slot the first that writes a 1. -/
theorem test_owwbyte_f0 :
    (after (exec (.owwbyte 0xF0) (bench benchBlock []))).map (fun t => (t.trace.length, t.trace.take 2, t.trace[19]?)) =
      some (34, [.crit true, .low 0], some (.rel 0)) := by decide +kernel

/-- V-BIT-8: least-significant bit first. -/
theorem test_owrbyte_91 :
    (after (exec .owrbyte (bench benchBlock [true, false, false, false, true, false, false, true]))).map
      (fun t => (t.responses, t.trace.length, t.blk.crit)) = some ([⟨.ok, 0x91⟩], 50, false) := by decide +kernel

/-! ### CRC8 engine (section 3.4) -/

/-- V-CRC-1, V-CRC-2. -/
theorem test_crc8Update :
    crc8Update 0x00 0x02 = 0xBC ∧ crc8Update 0x00 0x01 = 0x5E ∧ crc8Update 0x00 0x80 = 0x8C ∧
    crc8Update 0x00 0xFF = 0x35 ∧ crc8Update 0xBC 0x1C = 0xAF ∧ crc8Rotate 0x00 0x02 = 0xBC := by decide +kernel

/-- V-CRC-3, V-CRC-4. -/
theorem test_crc8 :
    crc8 [0x31, 0x32, 0x33, 0x34, 0x35, 0x36, 0x37, 0x38, 0x39] = 0xA1 ∧
    crc8 [0xFF, 0xFF, 0xFF, 0xFF, 0xFF, 0xFF, 0xFF] = 0x14 := by decide +kernel

/-- V-CRC-9: a payload whose bytes add up to 256 is nonzero. -/
theorem test_validate_wrap : validate [0x28, 0xD8, 0x00, 0x00, 0x00, 0x00, 0x00, 0x7B] = some true := by decide +kernel

theorem test_crcinit :
    (after (exec .crcinit (bench { benchBlock with crcAcc := 0x88, nz := true } []))).map
      (fun t => (t.blk.crcAcc, t.blk.nz, t.responses)) = some (0, false, [⟨.ok, 0⟩]) := by decide

/-- V-CRC-13: the second byte of the stream. -/
theorem test_crcupd :
    (after (exec (.crcupd 0x1C) (bench { benchBlock with crcAcc := 0xBC } []))).map
      (fun t => (t.blk.crcAcc, t.blk.nz, t.responses)) = some (0xAF, true, [⟨.ok, 0xAF⟩]) := by decide

/-- V-CRC-5, V-CRC-6, V-CRC-7, V-CRC-8. -/
theorem test_crcchk :
    crcVerdict 0x88 true 0x88 = ⟨.ok, 1⟩ ∧ crcVerdict 0x88 true 0x89 = ⟨.crcMismatch, 0⟩ ∧
    crcVerdict 0 false 0 = ⟨.zeroPayload, 0⟩ ∧ crcVerdict 0 false 1 = ⟨.crcMismatch, 0⟩ := by decide

/-! ### Device search (section 3.5) -/

/-- V-SRCH-1. -/
theorem test_srchfirst_three_devices :
    searchView (exec .srchfirst (bench benchBlock (searchLevels [devD1, devD2, devD3] devD2))) =
      some ([⟨.ok, 1⟩], 4, 4, false, devD2.toList) := by decide +kernel

/-- V-SRCH-2: replays 0 at position 2, takes 1 at position 4. -/
theorem test_srchnext_second_device :
    searchView (exec .srchnext (bench (withCursor 4 4 false devD2) (searchLevels [devD1, devD2, devD3] devD1))) =
      some ([⟨.ok, 1⟩], 2, 2, false, devD1.toList) := by decide +kernel

/-- V-SRCH-6, second call: a discrepancy outside the family byte leaves `LFD` alone. -/
theorem test_srchnext_position_49 :
    searchView (exec .srchnext (bench (withCursor 4 4 false devD2) (searchLevels [devD1, devD2, devD3, devD4] devD4))) =
      some ([⟨.ok, 1⟩], 49, 2, false, devD4.toList) := by decide +kernel

/-- V-SRCH-4, both policies: no event. -/
theorem test_srchnext_exhausted :
    (after (exec .srchnext (bench (withCursor 0 2 true devD3) []))).map
      (fun t => (t.responses, searchState t.blk, t.trace)) = some ([⟨.searchExhausted, 0⟩], ⟨0, 2, true, devD3⟩, []) ∧
    searchView (exec .srchnext { bench (withCursor 0 2 true devD3) [] with policy := .reset }) =
      some ([⟨.searchExhausted, 0⟩], 0, 0, false, zeroIdent.toList) := by decide

/-- V-SRCH-8: an empty line, from mid-enumeration; six events. -/
theorem test_srchnext_no_presence :
    (after (exec .srchnext (bench (withCursor 4 4 false devD2) [true]))).map
      (fun t => (t.responses, t.blk.ld, t.blk.id.toList, t.trace.length)) =
      some ([⟨.noPresence, 0⟩], 0, zeroIdent.toList, 6) := by decide

/-- V-SRCH-10: 11 slot-level operations. -/
theorem test_srchfirst_no_response :
    (after (exec .srchfirst (bench benchBlock [false, true, true]))).map
      (fun t => (t.responses, t.blk.id.toList, slotCount t.trace)) =
      some ([⟨.noResponse, 0⟩], zeroIdent.toList, 11) := by decide +kernel

/-- V-SRCH-13: another device is reached; the cursor and the identity are restored. -/
theorem test_srchverify_absent :
    searchView (exec .srchverify (bench (withCursor 0 0 false devD4) (searchLevels [devD1, devD2, devD3] devD1))) =
      some ([⟨.verifyMismatch, 0⟩], 0, 0, false, devD4.toList) := by decide +kernel

/-- V-SRCH-15: `LDF` is forced to 0 for the traversal and restored. -/
theorem test_srchverify_present :
    searchView (exec .srchverify (bench (withCursor 0 2 true devD3) (searchLevels [devD1, devD2, devD3] devD3))) =
      some ([⟨.ok, 1⟩], 0, 2, true, devD3.toList) := by decide +kernel

/-! ### Host access (section 3.6), the response word, the port -/

/-- V-HOST-2. -/
theorem test_idrd :
    (after (exec (.idrd 7) (bench (withCursor 4 4 false devD2) []))).map (·.responses) = some [⟨.ok, 0x9B⟩] := by decide

/-- V-HOST-4. -/
theorem test_idwr :
    searchView (exec (.idwr 0 0x28) (bench (withCursor 4 3 false devD2) [])) =
      some ([⟨.ok, 0⟩], 4, 3, false, [0x28, 0xA1, 0xB2, 0xC3, 0x00, 0x08, 0x00, 0x9B]) := by decide

/-- V-HOST-3 and V-HOST-8. -/
theorem test_strd :
    (after (exec (.strd 1) (bench (withCursor 49 2 true devD4) []))).map (·.responses) = some [⟨.ok, 0x31⟩] ∧
    (after (exec (.strd 3) (bench (withCursor 49 2 true devD4) []))).map (·.responses) = some [⟨.ok, 1⟩] := by decide

/-- The response words of section 3.1. -/
theorem test_response_words :
    (Response.mk .ok 0x9B).word = 0x009B ∧ (Response.mk .noPresence 0).word = 0x0100 ∧
    (Response.mk .illegalCommand 0).word = 0xFF00 := by decide

/-- V-ENC-16: an illegal word at the port. -/
theorem test_step_illegal :
    after (step { bench benchBlock [] with inputs := [.command 0x000000] }) =
      some { bench benchBlock [] with responses := [⟨.illegalCommand, 0⟩] } := by decide

/-- The first instruction after reset runs (V-RST-1: `STRD 1` is `OK/00`). -/
theorem test_step_after_reset :
    (after (step (State.reset.withFetchWord 24 0x420100))).map (·.responses) = some [⟨.ok, 0⟩] := by decide

/-- S5: the source's temperature example, 25.0625. -/
theorem test_decode_temperature : decodeTemperature devD1 0x91 0x01 = some (25, 625) := by decide

/-- S6: the source's one legacy case. -/
theorem test_legacy_fraction : legacyFraction 0xFF 12 = some 0 := by decide

/-- R66, R67: a line of assembler text and a pseudo-instruction. -/
theorem test_pseudo : expand (.resetch 1) = [.selch 1, .owreset] ∧ expand (.validate [2] 0xBC) =
    [.crcinit, .crcupd 2, .crcchk 0xBC] := by decide

theorem test_hex : hexWord (encode (.idwr 0 0x28)) = "410028" := by decide

/-! ### Witnesses: for each statement with hypotheses, a state and operands that meet them all -/

theorem witness_DecodeOfEncodeIsTheCommand : (Instr.idrd 7).WellFormed ∧ (Instr.strd 5).WellFormed ∧
    (Instr.owwbit 1).WellFormed ∧ (Instr.idwr 7 255).WellFormed := by decide

theorem witness_EncodeOfDecodeIsTheWord : decode 0x400700 = .ok (.idrd 7) := by decide

theorem witness_DecoderFollowsTheOpcodeMap :
    ∃ row ∈ opcodeTable, decode 0x420500 = .ok (.strd 5) ∧ row.selects 0x420500 = true := by decide

/-- One word for each clause of R65's list, at the boundary, that selects no row. -/
theorem witness_IllegalWordsChangeNothing :
    [0x040000#24, 0x010001, 0x030100, 0x130100, 0x020001, 0x110002, 0x400800, 0x410800, 0x420600].all
      (fun w => decide (¬ ∃ row ∈ opcodeTable, row.selects w = true)) = true := by decide +kernel

theorem witness_IllegalWordsChangeNothing_step :
    ({ bench benchBlock [] with inputs := [.command 0x420600] } : State).inputs = .command 0x420600 :: [] := by decide

theorem witness_OperandOutOfRangeIsIllegal : ¬ (Instr.idrd 8).WellFormed ∧ ¬ (Instr.owwbit 2).WellFormed ∧
    ¬ (Instr.strd 6).WellFormed ∧ ¬ (Instr.idwr 8 0).WellFormed := by decide

theorem witness_StepRunsTheDecodedCommand :
    ({ bench benchBlock [] with inputs := [.command 0x020100] } : State).inputs = .command 0x020100 :: [] ∧
    decode 0x020100 = .ok (.selch 1) ∧ (Instr.selch 1).WellFormed ∧ (bench benchBlock []).inputs = [] := by decide

theorem witness_EveryCommandGivesOneResponse :
    ({ bench benchBlock [] with inputs := [.command 0xFFFFFF] } : State).inputs = .command 0xFFFFFF :: [] := by decide

theorem witness_OutcomesOfEachCommand : (Instr.owwbit 0).WellFormed ∧ Instr.srchverify.WellFormed ∧
    ({ bench benchBlock [] with inputs := [.command 0x420600] } : State).inputs = .command 0x420600 :: [] ∧
    decode 0x420600 = .error .selectRange := by decide

theorem witness_HardwareResetEvent :
    ({ bench benchBlock [] with inputs := [.hardwareReset] } : State).inputs = .hardwareReset :: [] := by decide

/-- The bench state is legal, and steps. -/
theorem witness_StepKeepsLegalStates :
    Inv { bench (withCursor 4 4 false devD2) [false] with inputs := [.command 0x100000] } ∧
    (after (step { bench (withCursor 4 4 false devD2) [false] with inputs := [.command 0x100000] })).isSome = true :=
  ⟨⟨by decide, by decide, by decide, by decide, by decide, by decide, by decide⟩, by decide⟩

/-- A legal state at the boundaries of its ranges: `CH` the last channel, `LD = 64`, `LFD = 8`. -/
theorem witness_StepKeepsLegalStates_boundary :
    Inv (bench { withCursor 64 8 false devD2 with ch := 1 } []) :=
  ⟨by decide, by decide, by decide, by decide, by decide, by decide, by decide⟩

theorem witness_OnlyNamedCommandsWriteARegister :
    ∃ t, exec .waitconv (bench benchBlock []) = .next t ∧ (∀ n, Instr.waitconv ≠ .selch n) ∧ Instr.waitconv ≠ .init ∧
      Instr.waitconv ≠ .crcinit ∧ (∀ v, Instr.waitconv ≠ .crcupd v) ∧ Instr.waitconv ≠ .srchfirst ∧
      Instr.waitconv ≠ .srchnext ∧ (∀ k v, Instr.waitconv ≠ .idwr k v) :=
  ⟨_, rfl, by simp, by simp, by simp, by simp, by simp, by simp, by simp⟩

theorem witness_OnlyTheActiveLineIsDriven : ∃ t, exec (.owwbit 1) (bench benchBlock []) = .next t := ⟨_, rfl⟩

theorem witness_DriveLowThenReleaseFreesTheLine : (1#8).toNat < (bench benchBlock []).blk.lines.length := by decide

theorem witness_SampleFiltersTenRawSamples : 10 ≤ (bench benchBlock [true]).samples.length := by decide

theorem witness_StreamedValidatorIsValidate :
    ({ bench benchBlock [] with inputs := programInputs (validateProgram [2] 0xBC) ++ [] } : State).inputs =
      programInputs (validateProgram [2] 0xBC) ++ [] := rfl

theorem witness_SingleBitErrorsAreDetected : (1 < [0x02#8].length + 1) ∧ 7 < 8 := by decide

theorem witness_ExhaustedSearchTouchesNoBus : (bench (withCursor 0 2 true devD3) []).blk.ldf = true := by decide

theorem witness_NoPresenceEndsTheSearch :
    (bench (withCursor 4 4 false devD2) [true]).blk.ldf = false ∧
    5 < (rawBits 10 (bench (withCursor 4 4 false devD2) [true]).samples 0).count true := by decide

/-- Sixty-four pairs of a lone device `D2`. -/
def lonePairs : List (Bool × Bool) := (List.range' 1 64).map (wiredPair [devD2] devD2)

theorem witness_CompletedSearchFollowsThePairs :
    lonePairs.length = 64 ∧ (true, true) ∉ lonePairs ∧
    (bench benchBlock (pairLevels lonePairs)).samples = noiseFree (pairLevels lonePairs) ++ [] ∧
    (bench benchBlock (pairLevels lonePairs)).blk.ldf = false := by
  refine ⟨rfl, by decide, by simp [bench], rfl⟩

/-- The other two outcomes: a line stuck low (V-SRCH-9: every position a discrepancy) and a wrong CRC. -/
theorem witness_CompletedSearchFollowsThePairs_failures :
    (completedSearch initialSearch (List.replicate 64 (false, false))).2 = .zeroPayload ∧
    (completedSearch initialSearch (List.replicate 64 (true, false))).2 = .crcMismatch ∧
    (completedSearch initialSearch lonePairs).2 = .ok := by decide +kernel

/-- The same pairs for the verification. -/
theorem witness_CompletedVerifyKeepsTheCursor :
    lonePairs.length = 64 ∧ (true, true) ∉ lonePairs ∧
    (bench (withCursor 0 0 true devD2) (pairLevels lonePairs)).samples = noiseFree (pairLevels lonePairs) ++ [] := by
  refine ⟨rfl, by decide, by simp [bench]⟩

/-- An abort at the first position and one at the last. -/
theorem witness_AbortedSearchReportsNoResponse :
    ∀ pairs ∈ [[], lonePairs.take 63], pairs.length < 64 ∧ (true, true) ∉ pairs ∧
      (bench benchBlock (pairLevels (pairs ++ [(true, true)]))).samples =
        noiseFree (pairLevels (pairs ++ [(true, true)])) ++ [] ∧
      (bench benchBlock (pairLevels (pairs ++ [(true, true)]))).blk.ldf = false := by
  intro pairs h
  refine ⟨?_, ?_, by simp [bench], rfl⟩ <;> revert pairs <;> decide

/-- A search that reports a device, and one that fails. -/
theorem witness_SearchReportsWholeIdentitiesOnly :
    (after (exec .srchfirst (bench benchBlock (pairLevels lonePairs)))).map (·.responses) = some ([] ++ [⟨.ok, 1⟩]) ∧
    (after (exec .srchnext (bench benchBlock [true]))).map (·.responses) = some ([] ++ [⟨.noPresence, 0⟩]) := by decide +kernel

theorem witness_SlotsOfACommandAreBounded : ∃ t, exec .srchfirst (bench benchBlock [true]) = .next t := ⟨_, rfl⟩

theorem precedes_D2_D1 : precedes devD2 devD1 := ⟨4, by decide, by decide, by decide, by decide, by decide⟩
theorem precedes_D2_D3 : precedes devD2 devD3 := ⟨2, by decide, by decide, by decide, by decide, by decide⟩
theorem precedes_D1_D3 : precedes devD1 devD3 := ⟨2, by decide, by decide, by decide, by decide, by decide⟩

theorem ne_zero_of_first (d : Ident) (h : d[0] ≠ 0) : d ≠ zeroIdent :=
  fun e => h (by rw [e]; rfl)

theorem valid_D1 : validIdent devD1 := ⟨by decide +kernel, ne_zero_of_first _ (by decide)⟩
theorem valid_D2 : validIdent devD2 := ⟨by decide +kernel, ne_zero_of_first _ (by decide)⟩
theorem valid_D3 : validIdent devD3 := ⟨by decide +kernel, ne_zero_of_first _ (by decide)⟩

theorem valid_devices : ∀ e ∈ [devD2, devD1, devD3], validIdent e := by simp [valid_D1, valid_D2, valid_D3]

theorem witness_FirstSearchReportsTheLeastDevice :
    devD2 ∈ [devD2, devD1, devD3] ∧ (∀ e ∈ [devD2, devD1, devD3], validIdent e) ∧
    (∀ e ∈ [devD2, devD1, devD3], e = devD2 ∨ precedes devD2 e) ∧
    (bench benchBlock (searchLevels [devD2, devD1, devD3] devD2)).samples =
      noiseFree (searchLevels [devD2, devD1, devD3] devD2) ++ [] := by
  refine ⟨by simp, valid_devices, ?_, by simp [bench]⟩
  simp [precedes_D2_D1, precedes_D2_D3]

theorem witness_EnumerationReportsEveryDeviceOnce :
    [devD2, devD1, devD3] ≠ [] ∧ [devD2, devD1, devD3].Pairwise precedes ∧
    (∀ e ∈ [devD2, devD1, devD3], validIdent e) ∧
    ∃ s : State, s.inputs = programInputs (.srchfirst :: List.replicate 3 .srchnext) ++ [] ∧
      s.samples = noiseFree ([devD2, devD1, devD3].flatMap (searchLevels [devD2, devD1, devD3])) ++ [] := by
  refine ⟨by simp, by simp [precedes_D2_D1, precedes_D2_D3, precedes_D1_D3], valid_devices, ?_⟩
  exact ⟨{ bench benchBlock [] with
    inputs := programInputs (.srchfirst :: List.replicate 3 .srchnext) ++ []
    samples := noiseFree ([devD2, devD1, devD3].flatMap (searchLevels [devD2, devD1, devD3])) ++ [] }, rfl, rfl⟩

theorem witness_PresentDeviceVerifies :
    (bench (withCursor 2 2 false devD1) (searchLevels [devD2, devD1, devD3] devD1)).blk.id ∈ [devD2, devD1, devD3] ∧
    (∀ e ∈ [devD2, devD1, devD3], validIdent e) ∧
    (bench (withCursor 2 2 false devD1) (searchLevels [devD2, devD1, devD3] devD1)).samples =
      noiseFree (searchLevels [devD2, devD1, devD3] devD1) ++ [] :=
  ⟨by decide, valid_devices, by simp [bench]⟩

theorem witness_IdrdReadsAByte : (7#8).toNat ≤ 7 := by decide

theorem witness_IdwrWritesOneByte : (7#8).toNat ≤ 7 ∧ (0#8).toNat ≤ 7 := by decide

theorem witness_SetidThenGetidRoundTrip :
    ({ bench benchBlock [] with inputs := programInputs (setIdProgram devD1 ++ getIdProgram) } : State).inputs =
      programInputs (setIdProgram devD1 ++ getIdProgram) := rfl

theorem witness_RegistryRoundTrip :
    (∃ slots, ([[zeroIdent, zeroIdent]] : Registry)[0]? = some slots ∧ 1 < slots.length) ∧
    validIdent devD1 ∧ (0, 0) ≠ (0, 1) :=
  ⟨⟨[zeroIdent, zeroIdent], rfl, by decide⟩, valid_D1, by decide⟩

end Sys2Proof.Tests
end

section
/-! PROOFS. The command word's encoding (spec/30_encoding.md R61 to R65): which words select a row of the opcode map,
which words decode, and what a step on any other word does. -/

namespace Sys2Proof.Encoding

/-! ### The fields of a selected word (R63) -/

/-- A word is assembled from some fields exactly when they are its fields (R61). `op` is compared as a number, which is
how the decoder reads it. -/
theorem cmdWord_eq_iff (op a b : Byte) (w : CmdWord) :
    cmdWord op a b = w ↔ (opField w).toNat = op.toNat ∧ aField w = a ∧ bField w = b := by
  rw [BitVec.toNat_inj]
  constructor
  · rintro rfl
    simp
  · rintro ⟨rfl, rfl, rfl⟩
    exact cmdWord_fields w

theorem selects_iff_fields (row : OpcodeRow) (w : CmdWord) : row.selects w = true ↔
    (opField w &&& opField row.mask = opField row.pattern ∧ aField w &&& aField row.mask = aField row.pattern ∧
      bField w &&& bField row.mask = bField row.pattern) ∧ ∀ m ∈ row.maxA, (aField w).toNat ≤ m := by
  rw [OpcodeRow.selects, Bool.and_eq_true, beq_iff_eq, masked_iff]
  cases row.maxA <;> simp

theorem and_byteMask (v : Byte) : v &&& 255#8 = v := BitVec.and_allOnes

theorem and_indexMask_eq_zero_iff (k : Byte) : k &&& 248#8 = 0#8 ↔ k.toNat ≤ 7 := by
  revert k; decide

theorem and_bitMask_eq_zero_iff (x : Byte) : x &&& 254#8 = 0#8 ↔ x.toNat ≤ 1 := by
  revert x; decide

/-- Every row looks at the whole `op` field. -/
theorem opField_mask : ∀ row ∈ opcodeTable, opField row.mask = 255#8 := by decide

theorem opField_of_selects {row : OpcodeRow} (hrow : row ∈ opcodeTable) {w : CmdWord} (h : row.selects w = true) :
    opField w = opField row.pattern := by
  obtain ⟨⟨hop, -, -⟩, -⟩ := (selects_iff_fields row w).mp h
  rwa [opField_mask row hrow, and_byteMask] at hop

theorem opcodeTable_ops_distinct : opcodeTable.Pairwise (fun p q => opField p.pattern ≠ opField q.pattern) := by
  decide

/-- Two rows that select one word would share its operation code. -/
theorem opcodeTable_disjoint :
    opcodeTable.Pairwise (fun p q => ∀ w : CmdWord, ¬(p.selects w = true ∧ q.selects w = true)) :=
  opcodeTable_ops_distinct.imp_of_mem fun hp hq hne _ ⟨hpw, hqw⟩ =>
    hne ((opField_of_selects hp hpw).symm.trans (opField_of_selects hq hqw))

/-! ### When the decoder's operand checks pass (R64) -/

@[simp] theorem decodeNoOperand_eq_ok (a b : Byte) (j i : Instr) :
    decodeNoOperand a b j = .ok i ↔ (a = 0 ∧ b = 0) ∧ j = i := by
  unfold decodeNoOperand; split <;> simp_all

@[simp] theorem decodeA_eq_ok (b : Byte) (j i : Instr) : decodeA b j = .ok i ↔ b = 0 ∧ j = i := by
  unfold decodeA; split <;> simp_all

@[simp] theorem decodeB_eq_ok (a : Byte) (j i : Instr) : decodeB a j = .ok i ↔ a = 0 ∧ j = i := by
  unfold decodeB; split <;> simp_all

@[simp] theorem decodeChecked_eq_ok (ok : Bool) (why : Illegal) (r : Except Illegal Instr) (i : Instr) :
    decodeChecked ok why r = .ok i ↔ ok = true ∧ r = .ok i := by
  cases ok <;> simp [decodeChecked]

/-! ### Decoding and the opcode map (R63) -/

/-- A decoded word is the encoding of its command, which is well formed (R61, R64). -/
theorem encode_of_decode {w : CmdWord} {i : Instr} (h : decode w = .ok i) : i.WellFormed ∧ encode i = w := by
  unfold decode at h
  split at h <;> rename_i hop
  case h_18 => cases h
  all_goals
    simp only [decodeNoOperand_eq_ok, decodeA_eq_ok, decodeB_eq_ok, decodeChecked_eq_ok, Except.ok.injEq,
      eq_comm (b := i)] at h
    simp [h, Instr.WellFormed, Instr.wf, encode, cmdWord_eq_iff, hop]

/-- A word that selects a row decodes to a command of that row: the row fixes `op`, which picks the decoder's arm, and
its mask and extra constraint are that arm's operand checks. -/
theorem decode_of_selects {row : OpcodeRow} (hrow : row ∈ opcodeTable) {w : CmdWord} (h : row.selects w = true) :
    ∃ i, decode w = .ok i ∧ row.mnemonic = i.mnemonic := by
  have hop := opField_of_selects hrow h
  obtain ⟨⟨-, ha, hb⟩, hmax⟩ := (selects_iff_fields row w).mp h
  unfold decode
  rw [hop]
  clear h hop
  generalize aField w = a at ha hmax ⊢
  generalize bField w = b at hb ⊢
  fin_cases hrow
  all_goals
    simp_all [opField, aField, bField, and_byteMask, and_indexMask_eq_zero_iff, and_bitMask_eq_zero_iff,
      Instr.mnemonic]

/-- The encoding of every well-formed command selects the row of its mnemonic: the family `RowSelect`, gathered. -/
theorem rowSelect : ∀ i : Instr, Laws.RowSelect.Statement i
  | .init => Laws.RowSelect.init
  | .selch n => Laws.RowSelect.selch n
  | .waitconv => Laws.RowSelect.waitconv
  | .owreset => Laws.RowSelect.owreset
  | .owwbit x => Laws.RowSelect.owwbit x
  | .owrbit => Laws.RowSelect.owrbit
  | .owwbyte v => Laws.RowSelect.owwbyte v
  | .owrbyte => Laws.RowSelect.owrbyte
  | .crcinit => Laws.RowSelect.crcinit
  | .crcupd v => Laws.RowSelect.crcupd v
  | .crcchk v => Laws.RowSelect.crcchk v
  | .srchfirst => Laws.RowSelect.srchfirst
  | .srchnext => Laws.RowSelect.srchnext
  | .srchverify => Laws.RowSelect.srchverify
  | .idrd k => Laws.RowSelect.idrd k
  | .idwr k v => Laws.RowSelect.idwr k v
  | .strd sel => Laws.RowSelect.strd sel

theorem decodes_iff_selects (w : CmdWord) :
    (∃ i, decode w = .ok i) ↔ ∃ row ∈ opcodeTable, row.selects w = true := by
  constructor
  · rintro ⟨i, hi⟩
    obtain ⟨hwf, rfl⟩ := encode_of_decode hi
    obtain ⟨row, hrow, -, hsel⟩ := rowSelect i hwf
    exact ⟨row, hrow, hsel⟩
  · rintro ⟨row, hrow, hsel⟩
    obtain ⟨i, hi, -⟩ := decode_of_selects hrow hsel
    exact ⟨i, hi⟩

theorem mnemonic_of_selects {w : CmdWord} {i : Instr} {row : OpcodeRow} (hi : decode w = .ok i)
    (hrow : row ∈ opcodeTable) (hsel : row.selects w = true) : row.mnemonic = i.mnemonic := by
  obtain ⟨j, hj, hname⟩ := decode_of_selects hrow hsel
  obtain rfl : j = i := Except.ok.inj (hj.symm.trans hi)
  exact hname

/-! ### Illegal words (R65) -/

/-- R65's causes, over the three fields of a word: an `op` not in the table, a nonzero unused field (both operands
unused, `a` unused, `b` unused), the bit operand, the identity-buffer index, the register select. -/
def IllegalFields (op : Nat) (a b : Byte) : Prop :=
  op ∉ [0x01, 0x02, 0x03, 0x10, 0x11, 0x12, 0x13, 0x14, 0x20, 0x21, 0x22, 0x30, 0x31, 0x32, 0x40, 0x41, 0x42] ∨
  (op ∈ [0x01, 0x03, 0x10, 0x12, 0x14, 0x20, 0x30, 0x31, 0x32] ∧ (a ≠ 0 ∨ b ≠ 0)) ∨
  (op ∈ [0x11, 0x13, 0x21, 0x22] ∧ a ≠ 0) ∨
  (op ∈ [0x02, 0x40, 0x42] ∧ b ≠ 0) ∨
  (op = 0x11 ∧ 1 < b.toNat) ∨
  (op ∈ [0x40, 0x41] ∧ 7 < a.toNat) ∨
  (op = 0x42 ∧ 5 < a.toNat)

/-- The decoder fails for R65's causes only: in the arm of each `op` its operand checks are the negated causes. -/
theorem decode_fails_iff (w : CmdWord) :
    (¬ ∃ i, decode w = .ok i) ↔ IllegalFields (opField w).toNat (aField w) (bField w) := by
  unfold decode
  generalize (opField w).toNat = op
  generalize aField w = a
  generalize bField w = b
  split
  case h_18 => simp_all [IllegalFields]
  all_goals simp [IllegalFields, ← BitVec.toNat_inj]
  all_goals omega

theorem step_of_decode_fails {s : Machine.State} {w : CmdWord} {rest : List Machine.HostInput}
    (hs : s.inputs = .command w :: rest) (hw : ¬ ∃ i, decode w = .ok i) :
    Machine.step s = .next (Machine.illegalCommand { s with inputs := rest }) := by
  cases hd : decode w with
  | ok i => exact absurd ⟨i, hd⟩ hw
  | error e => simp [Machine.step, Machine.fetch, hs, hd]

end Sys2Proof.Encoding

open Sys2Proof Sys2Proof.Encoding

/-- Settles O3: encoding and decoding tie the decoder's arms to the rows, and the rows differ in `op`. -/
theorem decoderFollowsTheOpcodeMap : Obligations.DecoderFollowsTheOpcodeMap :=
  ⟨decodes_iff_selects, fun _ _ _ => mnemonic_of_selects, opcodeTable_disjoint⟩

/-- Settles O5: a word that selects no row does not decode, so the causes are the decoder's and the step answers
`ILLEGAL_COMMAND`. -/
theorem illegalWordsChangeNothing : Obligations.IllegalWordsChangeNothing := by
  refine ⟨fun w => ?_, fun s w rest hs hw => ?_, rfl⟩
  · rw [← decodes_iff_selects]
    exact decode_fails_iff w
  · rw [← decodes_iff_selects] at hw
    exact step_of_decode_fails hs hw

end

section
/-! PROOFS. The commands of the line control and delay layer that touch no line (spec/40_line_and_delay.md R82, R91):
`SELCH`, `WAITCONV`. -/

namespace Sys2Proof.Machine

/-- `CH <- n` when the line exists, as one update of the block: only `CH` can differ (R82). -/
theorem selectChannel_eq (n : Byte) (b : Block) :
    selectChannel n b = { b with ch := if n.toNat < b.lines.length then n else b.ch } := by
  unfold selectChannel channelOperand
  split
  · rfl
  · rfl

theorem exec_selch (n : Byte) (s : State) :
    exec (.selch n) s =
      .next (respond ⟨.ok, (selectChannel n s.blk).ch⟩ { s with blk := selectChannel n s.blk }) := rfl

theorem exec_waitconv (s : State) :
    exec .waitconv s = .next (respond ⟨.ok, 0⟩ (delay .conv s.blk.lt.conv.toNat s)) := rfl

end Sys2Proof.Machine

open Sys2Proof Sys2Proof.Machine

/-- Settles O19: the response reads `CH` after the selection, and the selection can change `CH` only. -/
theorem selchSelectsOrKeeps : Obligations.SelchSelectsOrKeeps := by
  intro n s
  rw [exec_selch, selectChannel_eq]
  rfl

/-- Settles O20: a delay appends its one event to `TRACE` and the response ends the command. -/
theorem waitconvWaitsTheConversion : Obligations.WaitconvWaitsTheConversion := by
  intro s
  rw [exec_waitconv]
  rfl

end

section
/-! PROOFS. The commands of the bit and byte layer that write the line (spec/41_bit_byte.md R102, R103, R106, R110):
`OWWBIT`, `OWWBYTE`. -/

namespace Sys2Proof.Machine

/-- A bit written as an operand is read back as that bit (30_encoding.md R64). -/
theorem bitOperand_ofBit (bit : Bool) : bitOperand (if bit then 1 else 0) = some bit := by
  cases bit <;> rfl

theorem exec_owwbit {x : Byte} {bit : Bool} (h : bitOperand x = some bit) (s : State) :
    exec (.owwbit x) s = .next (respond ⟨.ok, 0⟩ (writeBit bit s)) := by
  simp only [exec, execOwwbit, h]

theorem exec_owwbyte (v : Byte) (s : State) :
    exec (.owwbyte v) s = .next (respond ⟨.ok, 0⟩ (writeByte v s)) := rfl

/-- The 4 events of a write slot (R102). -/
theorem writeEvents_length (b : Block) (bit : Bool) : (writeEvents b bit).length = 4 := by
  cases bit <;> rfl

/-- Eight write slots of 4 events each and the two events of the bracket (R106). -/
theorem writeByteEvents_length (b : Block) (v : Byte) : (writeByteEvents b v).length = 34 := by
  simp [writeByteEvents, List.length_flatMap, writeEvents_length]

end Sys2Proof.Machine

open Sys2Proof Sys2Proof.Machine

/-- Settles O24: the operand gives the bit back, and the command is its write slot followed by the response. -/
theorem owwbitWritesOneSlot : Obligations.OwwbitWritesOneSlot := by
  intro bit s
  rw [exec_owwbit (bitOperand_ofBit bit), writeBit_eq]
  rfl

/-- Settles O26: the command is the byte's bracketed write slots followed by the response. -/
theorem owwbyteWritesEightSlots : Obligations.OwwbyteWritesEightSlots := by
  intro v s
  refine ⟨?_, writeByteEvents_length s.blk v⟩
  rw [exec_owwbyte, writeByte_eq]
  rfl

end

section
/-! PROOFS. The CRC8 functions and the commands that fold into the validator (spec/42_crc8.md R120 to R129).

One turn of the update is one turn of the feedback shift register on `acc xor byte`, and that turn can be undone. So the
update is an injective function of `acc xor byte` alone, whichever of its three forms computes it; the CRC tests and the
detection of flipped bits follow from the injectivity. -/

namespace Sys2Proof.Machine

/-! ### The feedback shift register -/

/-- A turn of R120's loop with a data bit 0. -/
def crc8Shift (a : Byte) : Byte := crc8Bit a false

/-- A turn backwards: bit 7 of the result is the feedback, because the shift makes it 0 and bit 7 of `0x8C` is 1. -/
def crc8Unshift (a : Byte) : Byte := if byteBit a 7 then ((a ^^^ 0x8C) <<< 1) ||| 1 else a <<< 1

theorem crc8Shift_zero : crc8Shift 0 = 0 := rfl

theorem crc8Shift_injective : Function.Injective crc8Shift :=
  have h : Function.LeftInverse crc8Unshift crc8Shift := by unfold Function.LeftInverse; decide
  h.injective

theorem byteBit_xor (v w : Byte) (m : Nat) : byteBit (v ^^^ w) m = (byteBit v m ^^ byteBit w m) :=
  BitVec.getLsbD_xor

theorem byteBit_ushiftRight (v : Byte) (n m : Nat) : byteBit (v >>> n) m = byteBit v (n + m) :=
  BitVec.getLsbD_ushiftRight v n m

/-- Folding in the lowest bit of a byte and dropping it from the byte is a turn on the xor of the two. -/
theorem crc8Bit_xor_ushiftRight (acc byte : Byte) :
    crc8Bit acc (byteBit byte 0) ^^^ byte >>> 1 = crc8Shift (acc ^^^ byte) := by
  rw [crc8Shift, crc8Bit, crc8Bit, byteBit_xor, BitVec.ushiftRight_xor_distrib, Bool.xor_false]
  split
  · ac_rfl
  · rfl

/-! ### The rotation form (R121) -/

/-- `0x18` shifted right once, with the feedback bit put on top, is `0x8C` (R121). -/
theorem rotateTurn_eq_feedbackTurn (acc : Byte) :
    (acc ^^^ 0x18) >>> 1 &&& (0x7F : Byte) ||| (0x80 : Byte) = acc >>> 1 ^^^ (0x8C : Byte) ∧
      acc >>> 1 &&& (0x7F : Byte) = acc >>> 1 := by
  revert acc; decide

/-- A turn of R121's loop is a turn of R120's loop that takes its data bit off the byte. -/
theorem crc8RotateBit_eq (acc byte : Byte) :
    crc8RotateBit (acc, byte) = (crc8Bit acc (byteBit byte 0), byte >>> 1) := by
  obtain ⟨hfb, hno⟩ := rotateTurn_eq_feedbackTurn acc
  simp only [crc8RotateBit, crc8Bit, byteBit_xor]
  split
  · rw [hfb]
  · rw [hno]

theorem crc8RotateBit_iterate (acc byte : Byte) (n : Nat) :
    crc8RotateBit^[n] (acc, byte) =
      ((List.range n).foldl (fun a i => crc8Bit a (byteBit byte i)) acc, byte >>> n) := by
  induction n with
  | zero => simp
  | succ n ih =>
    rw [Function.iterate_succ_apply', ih, crc8RotateBit_eq, byteBit_ushiftRight, List.range_succ, List.foldl_append,
      BitVec.shiftRight_add]
    rfl

theorem crc8Rotate_eq_crc8Update (acc byte : Byte) : crc8Rotate acc byte = crc8Update acc byte := by
  rw [crc8Rotate, crc8RotateBit_iterate, crc8Update]

/-! ### The update as a function of `acc xor byte` (R125) -/

theorem crc8RotateBit_semiconj : Function.Semiconj (fun p : Byte × Byte => p.1 ^^^ p.2) crc8RotateBit crc8Shift := by
  rintro ⟨acc, byte⟩
  rw [crc8RotateBit_eq]
  exact crc8Bit_xor_ushiftRight acc byte

/-- After eight turns nothing is left of the byte, so the xor is the accumulator. -/
theorem crc8Update_eq_iterate (acc byte : Byte) : crc8Update acc byte = crc8Shift^[8] (acc ^^^ byte) := by
  have h := crc8RotateBit_semiconj.iterate_right 8 (acc, byte)
  simp only [crc8RotateBit_iterate, BitVec.ushiftRight_eq_zero (Nat.le_refl 8), BitVec.xor_zero] at h
  exact h

theorem crc8Update_eq_zero_xor (acc byte : Byte) : crc8Update acc byte = crc8Update 0 (acc ^^^ byte) := by
  rw [crc8Update_eq_iterate, crc8Update_eq_iterate]
  exact congrArg _ BitVec.zero_xor.symm

theorem crc8Update_eq_iff (acc byte acc' byte' : Byte) :
    crc8Update acc byte = crc8Update acc' byte' ↔ acc ^^^ byte = acc' ^^^ byte' := by
  rw [crc8Update_eq_iterate, crc8Update_eq_iterate]
  exact (crc8Shift_injective.iterate 8).eq_iff

theorem crc8Update_injective_byte (acc : Byte) : Function.Injective (crc8Update acc) := fun _ _ h =>
  (BitVec.xor_right_inj acc).mp ((crc8Update_eq_iff ..).mp h)

theorem crc8Update_injective_acc (byte : Byte) : Function.Injective (fun acc => crc8Update acc byte) := fun _ _ h =>
  (BitVec.xor_left_inj byte).mp ((crc8Update_eq_iff ..).mp h)

theorem crc8Update_self (acc : Byte) : crc8Update acc acc = 0 := by
  rw [crc8Update_eq_iterate, BitVec.xor_self]
  exact Function.iterate_fixed crc8Shift_zero 8

theorem crc8Update_eq_zero_iff (acc byte : Byte) : crc8Update acc byte = 0 ↔ byte = acc := by
  rw [← crc8Update_self acc, (crc8Update_injective_byte acc).eq_iff]

/-! ### The table form (R122) -/

theorem crc8Table_eq_ofFn : crc8Table = List.ofFn fun x : Fin 256 => crc8Update 0 (BitVec.ofFin x) := by
  decide +kernel

theorem getElem?_crc8Table (x : Byte) : crc8Table[x.toNat]? = some (crc8Update 0 x) := by
  rw [crc8Table_eq_ofFn, List.getElem?_ofFn, dif_pos x.isLt]
  rfl

theorem crc8Table_nodup : crc8Table.Nodup := by
  rw [crc8Table_eq_ofFn, List.nodup_ofFn]
  intro x y h
  exact congrArg BitVec.toFin (crc8Update_injective_byte 0 h)

theorem crc8Table_length : crc8Table.length = 256 := by
  rw [crc8Table_eq_ofFn, List.length_ofFn]

theorem crc8Table_zero : crc8Table[0]? = some 0 :=
  (getElem?_crc8Table 0).trans (congrArg some (crc8Update_self 0))

theorem crc8Lookup_eq_crc8Update (acc byte : Byte) : crc8Lookup acc byte = crc8Update acc byte := by
  rw [crc8Lookup, List.getD_eq_getElem?_getD, getElem?_crc8Table, Option.getD_some, ← crc8Update_eq_zero_xor]

/-! ### The CRC of a buffer (R123, R126) -/

theorem crc8_append_singleton (bytes : List Byte) (c : Byte) : crc8 (bytes ++ [c]) = crc8Update (crc8 bytes) c := by
  rw [crc8, List.foldl_append]
  rfl

theorem crc8_append_eq_zero_iff (bytes : List Byte) (c : Byte) : crc8 (bytes ++ [c]) = 0 ↔ c = crc8 bytes := by
  rw [crc8_append_singleton, crc8Update_eq_zero_iff]

/-- An all-zero buffer passes the CRC test, which is why `validate` asks for a nonzero payload too. -/
theorem crc8_eq_zero_of_all_zero {bytes : List Byte} (h : ∀ v ∈ bytes, v = 0) : crc8 bytes = 0 := by
  rw [List.eq_replicate_of_mem h, crc8]
  generalize bytes.length = n
  induction n with
  | zero => rfl
  | succ n ih => rwa [List.replicate_succ, List.foldl_cons, crc8Update_self]

theorem foldl_crc8Update_injective (bytes : List Byte) :
    Function.Injective (fun acc => bytes.foldl crc8Update acc) := by
  induction bytes with
  | nil => exact Function.injective_id
  | cons v bytes ih => exact ih.comp (crc8Update_injective_acc v)

/-- A changed byte changes the accumulator after it, and the unchanged bytes that follow keep the difference (R127). -/
theorem foldl_crc8Update_modify_ne {f : Byte → Byte} (hf : ∀ v, f v ≠ v) (bytes : List Byte) {j : Nat}
    (hj : j < bytes.length) (acc : Byte) : (bytes.modify j f).foldl crc8Update acc ≠ bytes.foldl crc8Update acc := by
  induction bytes generalizing j acc with
  | nil => exact absurd hj (Nat.not_lt_zero j)
  | cons v bytes ih =>
    cases j with
    | zero =>
      rw [List.modify_zero_cons, List.foldl_cons, List.foldl_cons]
      exact fun h => hf v (crc8Update_injective_byte acc (foldl_crc8Update_injective bytes h))
    | succ j =>
      rw [List.modify_succ_cons, List.foldl_cons, List.foldl_cons]
      exact ih (Nat.lt_of_succ_lt_succ hj) (crc8Update acc v)

/-! ### `validate` (R124) -/

theorem validate_append_singleton (payload : List Byte) (check : Byte) :
    validate (payload ++ [check]) = some (validatePayload payload check) := by
  simp [validate]

theorem payloadSum_eq_zero_iff (bytes : List Byte) : payloadSum bytes = 0 ↔ ∀ v ∈ bytes, v = 0 := by
  simp [payloadSum, List.sum_eq_zero_iff, ← BitVec.toNat_inj]

/-- The sum over the naturals cannot wrap, so it is nonzero exactly when some byte is. -/
theorem validatePayload_eq (payload : List Byte) (check : Byte) :
    validatePayload payload check = (crc8 payload == check && payload.any fun v => decide (v ≠ 0)) := by
  rw [validatePayload, Bool.eq_iff_iff]
  simp [payloadSum_eq_zero_iff]

/-- R126 for a buffer of any positive length: `validate` asks for CRC 0 over the whole buffer and a nonzero byte
anywhere in it, since the check byte of a zero payload can only be 0. -/
theorem validate_eq {buffer : List Byte} (h : buffer ≠ []) :
    validate buffer = some (decide (crc8 buffer = 0 ∧ ¬ ∀ v ∈ buffer, v = 0)) := by
  obtain rfl | ⟨payload, check, rfl⟩ := buffer.eq_nil_or_concat'
  · exact absurd rfl h
  rw [validate_append_singleton, validatePayload_eq, Option.some_inj, Bool.eq_iff_iff, decide_eq_true_iff,
    crc8_append_eq_zero_iff]
  simp only [Bool.and_eq_true, beq_iff_eq, List.any_eq_true, decide_eq_true_iff, List.forall_mem_append,
    List.forall_mem_singleton]
  constructor
  · rintro ⟨hcrc, v, hv, hne⟩
    exact ⟨hcrc.symm, fun ⟨hzero, _⟩ => hne (hzero v hv)⟩
  · rintro ⟨hcrc, hne⟩
    refine ⟨hcrc.symm, ?_⟩
    by_contra! hzero
    exact hne ⟨hzero, hcrc.trans (crc8_eq_zero_of_all_zero hzero)⟩

theorem forall_mem_toList_eq_zero_iff (d : Ident) : (∀ v ∈ d.toList, v = 0) ↔ d = zeroIdent := by
  simp [zeroIdent, Vector.eq_replicate_iff]

theorem xor_singleBit_ne {i : Nat} (hi : i < 8) (v : Byte) : v ^^^ (1#8 <<< i) ≠ v := fun h =>
  have hbit : ∀ i < 8, 1#8 <<< i ≠ 0#8 := by decide
  hbit i hi ((BitVec.xor_right_inj v).mp (h.trans BitVec.xor_zero.symm))

/-! ### The commands (R128, R129) -/

theorem exec_crcinit (s : State) :
    exec .crcinit s = .next (respond ⟨.ok, 0⟩ { s with blk := { s.blk with crcAcc := 0, nz := false } }) := rfl

theorem exec_crcupd (v : Byte) (s : State) :
    exec (.crcupd v) s = .next (respond ⟨.ok, crc8Update s.blk.crcAcc v⟩
      { s with blk := { s.blk with crcAcc := crc8Update s.blk.crcAcc v, nz := nzAfter s.blk.nz v } }) := rfl

theorem nzAfter_eq (nz : Bool) (v : Byte) : nzAfter nz v = (nz || decide (v ≠ 0)) := by
  rw [nzAfter, decide_not]
  rfl

end Sys2Proof.Machine

open Sys2Proof Sys2Proof.Machine

/-- Settles O32: the table lists the update from accumulator 0, which is injective in the byte. -/
theorem crcFormsAgree : Obligations.CrcFormsAgree :=
  ⟨fun acc byte => ⟨crc8Rotate_eq_crc8Update acc byte, crc8Lookup_eq_crc8Update acc byte⟩,
    getElem?_crc8Table, crc8Table_length, crc8Table_nodup, crc8Table_zero⟩

/-- Settles O33: eight turns of the invertible shift register on `acc xor byte`. -/
theorem crcUpdateDependsOnXor : Obligations.CrcUpdateDependsOnXor := fun acc =>
  ⟨fun byte => ⟨crc8Update_eq_zero_xor acc byte, crc8Update_eq_zero_iff acc byte⟩,
    Finite.injective_iff_bijective.mp (crc8Update_injective_byte acc)⟩

/-- Settles O34: the update is 0 only at the byte that equals the accumulator, and an identity is a buffer of eight
bytes. -/
theorem crcTestFormsAgree : Obligations.CrcTestFormsAgree := by
  refine ⟨crc8_append_eq_zero_iff, fun d => ?_⟩
  have hne : d.toList ≠ [] := List.ne_nil_of_length_eq_add_one d.length_toList
  rw [validate_eq hne, Option.some_inj, decide_eq_true_iff, forall_mem_toList_eq_zero_iff]

/-- Settles O35: a flipped bit changes the CRC of the whole buffer, which was 0. -/
theorem singleBitErrorsAreDetected : Obligations.SingleBitErrorsAreDetected := by
  refine ⟨fun bytes => ?_, fun bytes j i hj hi => ?_⟩
  · rw [validate_append_singleton, validatePayload_eq, beq_self_eq_true, Bool.true_and]
  · have hvalid : crc8 (bytes ++ [crc8 bytes]) = 0 := (crc8_append_eq_zero_iff ..).mpr rfl
    have hflip : crc8 ((bytes ++ [crc8 bytes]).modify j fun v => v ^^^ (1#8 <<< i)) ≠ 0 := hvalid ▸
      foldl_crc8Update_modify_ne (xor_singleBit_ne hi) _ (by simpa using hj) 0
    rw [validate_eq (by simp), decide_eq_false (fun h => hflip h.1)]

/-- Settles O28: the response ends the command and touches no register. -/
theorem crcinitClearsTheValidator : Obligations.CrcinitClearsTheValidator := by
  intro s
  rw [exec_crcinit]
  rfl

/-- Settles O29: the new accumulator is both written and answered. -/
theorem crcupdFoldsAByte : Obligations.CrcupdFoldsAByte := by
  intro v s
  rw [exec_crcupd, nzAfter_eq]
  rfl

end

section
/-! PROOFS. The device search commands (spec/43_search.md R142): `SRCHNEXT` when no branch remains. -/

namespace Sys2Proof.Machine

theorem exec_srchnext (s : State) :
    exec .srchnext s = .next (respond (searchResponse (searchTraverse s).1.1 (searchTraverse s).1.2)
      (searchTraverse s).2) := rfl

/-- With `LDF` set the traversal stops before its bus reset (R142). -/
theorem searchTraverse_of_ldf {s : State} (h : s.blk.ldf = true) :
    searchTraverse s = ((false, .searchExhausted), afterExhaustion s) := if_pos h

theorem afterExhaustion_of_sticky {s : State} (h : s.policy = .sticky) : afterExhaustion s = s := by
  rw [afterExhaustion, h]

theorem afterExhaustion_of_reset {s : State} (h : s.policy = .reset) : afterExhaustion s = resetSearch s := by
  rw [afterExhaustion, h]

end Sys2Proof.Machine

open Sys2Proof Sys2Proof.Machine

/-- Settles O36: the traversal stops before its bus reset, so only the policy's two cases and the response remain. -/
theorem exhaustedSearchTouchesNoBus : Obligations.ExhaustedSearchTouchesNoBus := by
  intro s hldf
  rw [exec_srchnext, searchTraverse_of_ldf hldf]
  split
  next hsticky =>
    rw [afterExhaustion_of_sticky hsticky]
    rfl
  next hreset =>
    rw [afterExhaustion_of_reset hreset]
    rfl

end

section
/-! PROOFS. The host register access commands (spec/44_host_access.md R170 to R172): `IDRD`, `IDWR`, `STRD`. -/

namespace Sys2Proof.Machine

/-! ### The identity buffer (20_memory.md R40) -/

theorem idByte_setIdByte (id : Ident) {k : Nat} (hk : k < 8) (v : Byte) (j : Nat) :
    idByte (setIdByte id k v) j = if j = k then v else idByte id j := by
  rw [idByte, setIdByte, Vector.getElem?_setIfInBounds, if_pos hk, idByte]
  by_cases h : j = k
  · rw [if_pos h, if_pos h.symm, Option.getD_some]
  · rw [if_neg h, if_neg (Ne.symm h)]

theorem memRead_memWrite {k : Nat} (hk : k < 8) (v : Byte) (b : Block) (j : Nat) :
    memRead (memWrite k v b) j = if j = k then v else memRead b j :=
  idByte_setIdByte b.id hk v j

/-! ### The commands on an operand in range -/

theorem indexOperand_of_le {k : Byte} (h : k.toNat ≤ 7) : indexOperand k = some k.toNat := if_pos h

theorem exec_idrd {k : Byte} (h : k.toNat ≤ 7) (s : State) :
    exec (.idrd k) s = .next (respond ⟨.ok, memRead s.blk k.toNat⟩ s) := by
  simp only [exec, execIdrd, indexOperand_of_le h]

theorem exec_idwr {k : Byte} (h : k.toNat ≤ 7) (v : Byte) (s : State) :
    exec (.idwr k v) s = .next (respond ⟨.ok, 0⟩ { s with blk := memWrite k.toNat v s.blk }) := by
  simp only [exec, execIdwr, indexOperand_of_le h]

theorem exec_strd {sel v : Byte} {s : State} (h : selectOperand sel s.blk = some v) :
    exec (.strd sel) s = .next (respond ⟨.ok, v⟩ s) := by
  simp only [exec, execStrd, h]

end Sys2Proof.Machine

open Sys2Proof Sys2Proof.Machine

/-- Settles O48: the operand is the index it names, and the response ends the command. -/
theorem idrdReadsAByte : Obligations.IdrdReadsAByte := by
  intro k s hk
  rw [exec_idrd hk]
  rfl

/-- Settles O49: the write replaces the buffer alone, and a read after it finds the new byte at its own index only. -/
theorem idwrWritesOneByte : Obligations.IdwrWritesOneByte := by
  intro k v s hk
  refine ⟨setIdByte s.blk.id k.toNat v, ?_, memRead_memWrite (Nat.lt_succ_of_le hk) v s.blk⟩
  rw [exec_idwr hk]
  rfl

/-- Settles O50: each of the six selects names its register, and the response ends the command. -/
theorem strdReadsTheSelectedRegister : Obligations.StrdReadsTheSelectedRegister := by
  intro s p hp
  have hsel : selectOperand p.1 s.blk = some p.2 := by
    simp only [List.mem_cons, List.not_mem_nil, or_false] at hp
    obtain rfl | rfl | rfl | rfl | rfl | rfl := hp <;> rfl
  rw [exec_strd hsel]
  rfl

end

section
/-! PROOFS. The outcomes of each command (spec/60_exceptions.md R210, R211): every command ends in one response, and the
response is one that the command's row allows. -/

namespace Sys2Proof.Machine

/-! ### The responses a row allows -/

/-- R211's row of the command lists the status, and `DATA` is 0 unless the status is `OK` (R210). -/
def Permits (i : Instr) (r : Response) : Prop :=
  r.status ∈ possibleStatus i ∧ (r.status ≠ .ok → r.data = 0)

theorem ok_mem_possibleStatus (i : Instr) : .ok ∈ possibleStatus i := by
  cases i <;> exact List.mem_cons_self

theorem permits_ok (i : Instr) (d : Byte) : Permits i ⟨.ok, d⟩ :=
  ⟨ok_mem_possibleStatus i, fun hne => absurd rfl hne⟩

theorem permits_cause {i : Instr} {c : Status} (hc : c ∈ possibleStatus i) : Permits i ⟨c, 0⟩ :=
  ⟨hc, fun _ => rfl⟩

theorem permits_resetResponse (p : Bool) : Permits .owreset (resetResponse p) := by
  cases p with
  | true => exact permits_ok _ _
  | false => exact permits_cause (by simp [possibleStatus])

theorem permits_crcVerdict (acc : Byte) (nz : Bool) (v : Byte) : Permits (.crcchk v) (crcVerdict acc nz v) := by
  unfold crcVerdict
  split
  · exact permits_cause (by simp [possibleStatus])
  · split
    · exact permits_cause (by simp [possibleStatus])
    · exact permits_ok _ _

/-! ### The responses of the searches -/

/-- A traversal that finds no device fails for a cause in the row of `SRCHFIRST`, but for exhaustion, which needs `LDF`
set at its start (R211, 43_search.md R142). -/
theorem searchTraverse_failure {s : State} {c : Status} (h : (searchTraverse s).1 = (false, c)) :
    c ∈ possibleStatus .srchfirst ∨ c = .searchExhausted ∧ s.blk.ldf = true := by
  obtain hfound | ⟨c', hc', hcause⟩ := searchTraverse_outcome s
  · cases h.symm.trans hfound
  · cases h.symm.trans hc'
    obtain hexhausted | hcause := hcause
    · exact .inr hexhausted
    · exact .inl (by simp [possibleStatus, hcause])

theorem searchTraverse_failure_of_ldf_clear {s : State} (hldf : s.blk.ldf = false) {c : Status}
    (h : (searchTraverse s).1 = (false, c)) : c ∈ possibleStatus .srchfirst := by
  obtain hrow | ⟨-, hset⟩ := searchTraverse_failure h
  · exact hrow
  · cases hldf.symm.trans hset

/-- `SRCHFIRST` and `SRCHNEXT` answer their traversal's cause, so a row only has to list its failures. -/
theorem permits_searchResponse {i : Instr} {s : State}
    (hrow : ∀ c, (searchTraverse s).1 = (false, c) → c ∈ possibleStatus i) :
    Permits i (searchResponse (searchTraverse s).1.1 (searchTraverse s).1.2) := by
  obtain hfound | ⟨c, hfail, -⟩ := searchTraverse_outcome s
  · rw [hfound]
    exact permits_ok _ _
  · rw [hfail]
    exact permits_cause (hrow c hfail)

theorem permits_searchResponse_srchfirst {s : State} (hldf : s.blk.ldf = false) :
    Permits .srchfirst (searchResponse (searchTraverse s).1.1 (searchTraverse s).1.2) :=
  permits_searchResponse fun _ => searchTraverse_failure_of_ldf_clear hldf

theorem permits_searchResponse_srchnext (s : State) :
    Permits .srchnext (searchResponse (searchTraverse s).1.1 (searchTraverse s).1.2) := by
  have hrow : possibleStatus .srchfirst ⊆ possibleStatus .srchnext := by decide
  refine permits_searchResponse fun c h => ?_
  obtain hc | ⟨rfl, -⟩ := searchTraverse_failure h
  · exact hrow hc
  · simp [possibleStatus]

theorem permits_verifyResponse {s : State} (hldf : s.blk.ldf = false) (same : Bool) :
    Permits .srchverify (verifyResponse (searchTraverse s).1.1 (searchTraverse s).1.2 same) := by
  have hrow : possibleStatus .srchfirst ⊆ possibleStatus .srchverify := by decide
  obtain hfound | ⟨c, hfail, -⟩ := searchTraverse_outcome s
  · rw [hfound]
    cases same with
    | true => exact permits_ok _ _
    | false => exact permits_cause (by simp [possibleStatus])
  · rw [hfail]
    exact permits_cause (hrow (searchTraverse_failure_of_ldf_clear hldf hfail))

/-! ### Operands in range (30_encoding.md R64) -/

theorem exists_bitOperand {x : Byte} (h : x.toNat ≤ 1) : ∃ bit, bitOperand x = some bit := by
  revert x; decide

theorem exists_selectOperand {sel : Byte} (h : sel.toNat ≤ 5) (b : Block) : ∃ v, selectOperand sel b = some v := by
  unfold selectOperand
  interval_cases sel.toNat
  all_goals exact ⟨_, rfl⟩

/-! ### The commands, each as its one response -/

theorem exec_init (s : State) :
    exec .init s = .next (respond ⟨.ok, 0⟩ { (presentedTiming s).2 with
      blk := { (presentedTiming s).2.blk with lt := liveTiming Config.delayCal (presentedTiming s).1 } }) := rfl

theorem presentedTiming_responses (s : State) : (presentedTiming s).2.responses = s.responses := by
  unfold presentedTiming
  split
  · rfl
  · rfl

theorem exec_owreset (s : State) :
    exec .owreset s = .next (respond (resetResponse (busReset s).1) (busReset s).2) := rfl

theorem exec_owrbit (s : State) :
    exec .owrbit s = .next (respond ⟨.ok, bitToByte (readBit s).1⟩ (readBit s).2) := rfl

theorem exec_owrbyte (s : State) :
    exec .owrbyte s = .next (respond ⟨.ok, (readByte s).1⟩ (readByte s).2) := by
  simp only [exec, execOwrbyte, readByte_eq]

theorem exec_crcchk (v : Byte) (s : State) :
    exec (.crcchk v) s = .next (respond (crcVerdict s.blk.crcAcc s.blk.nz v) s) := rfl

theorem exec_srchfirst (s : State) :
    exec .srchfirst s = .next (respond (searchResponse (searchTraverse (resetSearch s)).1.1
      (searchTraverse (resetSearch s)).1.2) (searchTraverse (resetSearch s)).2) := rfl

theorem exec_srchverify (s : State) :
    exec .srchverify s = .next (respond (verifyResponse (searchTraverse (forceReplay s)).1.1
      (searchTraverse (forceReplay s)).1.2 ((searchTraverse (forceReplay s)).2.blk.id == s.blk.id))
      { (searchTraverse (forceReplay s)).2 with
        blk := setSearchState (searchState s.blk) (searchTraverse (forceReplay s)).2.blk }) := rfl

/-- The outcome is a next state with one response more, which the command's row allows. -/
def Completes (i : Instr) (s : State) (o : Host.Outcome State Fault Refusal) : Prop :=
  ∃ t r, o = .next t ∧ t.responses = s.responses ++ [r] ∧ Permits i r

/-- A command completes when what it does before its response gives none and its response is allowed. -/
theorem completes_respond {i : Instr} {s t : State} {r : Response} (ht : t.responses = s.responses)
    (hr : Permits i r) : Completes i s (.next (respond r t)) :=
  ⟨respond r t, r, rfl, by rw [respond_responses, ht], hr⟩

theorem exec_completes {i : Instr} (h : i.WellFormed) (s : State) : Completes i s (exec i s) := by
  cases i with
  | init =>
    rw [exec_init]
    exact completes_respond (presentedTiming_responses s) (permits_ok _ _)
  | selch n =>
    rw [exec_selch]
    exact completes_respond rfl (permits_ok _ _)
  | waitconv =>
    rw [exec_waitconv]
    exact completes_respond rfl (permits_ok _ _)
  | owreset =>
    rw [exec_owreset]
    exact completes_respond (busReset_frame s).responses (permits_resetResponse _)
  | owwbit x =>
    obtain ⟨bit, hbit⟩ := exists_bitOperand (of_decide_eq_true h)
    rw [exec_owwbit hbit]
    exact completes_respond (writeBit_frame bit s).responses (permits_ok _ _)
  | owrbit =>
    rw [exec_owrbit]
    exact completes_respond (readBit_frame s).responses (permits_ok _ _)
  | owwbyte v =>
    rw [exec_owwbyte]
    exact completes_respond (writeByte_frame v s).responses (permits_ok _ _)
  | owrbyte =>
    rw [exec_owrbyte]
    exact completes_respond (readByte_frame s).responses (permits_ok _ _)
  | crcinit =>
    rw [exec_crcinit]
    exact completes_respond rfl (permits_ok _ _)
  | crcupd v =>
    rw [exec_crcupd]
    exact completes_respond rfl (permits_ok _ _)
  | crcchk v =>
    rw [exec_crcchk]
    exact completes_respond rfl (permits_crcVerdict _ _ v)
  | srchfirst =>
    rw [exec_srchfirst]
    exact completes_respond (searchTraverse_frame (resetSearch s)).responses (permits_searchResponse_srchfirst rfl)
  | srchnext =>
    rw [exec_srchnext]
    exact completes_respond (searchTraverse_frame s).responses (permits_searchResponse_srchnext s)
  | srchverify =>
    rw [exec_srchverify]
    exact completes_respond (searchTraverse_frame (forceReplay s)).responses (permits_verifyResponse rfl _)
  | idrd k =>
    rw [exec_idrd (of_decide_eq_true h)]
    exact completes_respond rfl (permits_ok _ _)
  | idwr k v =>
    rw [exec_idwr (of_decide_eq_true h)]
    exact completes_respond rfl (permits_ok _ _)
  | strd sel =>
    obtain ⟨v, hv⟩ := exists_selectOperand (of_decide_eq_true h) s.blk
    rw [exec_strd hv]
    exact completes_respond rfl (permits_ok _ _)

end Sys2Proof.Machine

open Sys2Proof Sys2Proof.Machine

/-- Settles O10: each command is its response after operations that give none, and the response functions stay in the
command's row; a word that does not decode answers `ILLEGAL_COMMAND`. -/
theorem outcomesOfEachCommand : Obligations.OutcomesOfEachCommand := by
  refine ⟨fun i s hwf => exec_completes hwf s, fun s w rest e hs he => ?_⟩
  have hfails : ¬ ∃ i, decode w = .ok i := fun ⟨i, hi⟩ => by cases he.symm.trans hi
  exact ⟨_, Encoding.step_of_decode_fails hs hfails, illegalCommand_responses _⟩

end

section
/-! PROOFS. The command port (spec/30_encoding.md R60 to R65): the round trip of encoder and decoder, what a step does
with a presented word, operands out of range, and the response word. -/

namespace Sys2Proof.Encoding

/-! ### The round trip (R61, R64) -/

/-- In the arm that `encode` writes the operation code for, the decoder's operand checks are the command's
well-formedness, and its fields are the operands. -/
theorem decode_encode {i : Instr} (h : i.WellFormed) : decode (encode i) = .ok i := by
  cases i with
  | owwbit x => simpa [encode, decode] using of_decide_eq_true h
  | idrd k => simpa [encode, decode] using of_decide_eq_true h
  | idwr k v => simpa [encode, decode] using of_decide_eq_true h
  | strd sel => simpa [encode, decode] using of_decide_eq_true h
  | _ => simp [encode, decode]

/-! ### A step on a word at the port (R60) -/

theorem step_of_decode {s : Machine.State} {w : CmdWord} {rest : List Machine.HostInput} {i : Instr}
    (hs : s.inputs = .command w :: rest) (hw : decode w = .ok i) :
    Machine.step s = Machine.exec i { s with inputs := rest } := by
  simp [Machine.step, Machine.fetch, hs, hw]

theorem step_of_encode {s : Machine.State} {i : Instr} {rest : List Machine.HostInput} (h : i.WellFormed)
    (hs : s.inputs = .command (encode i) :: rest) : Machine.step s = Machine.exec i { s with inputs := rest } :=
  step_of_decode hs (decode_encode h)

theorem step_of_idle {s : Machine.State} (hs : s.inputs = []) : Machine.step s = .next s := by
  simp [Machine.step, Machine.fetch, hs]

theorem step_of_reset {s : Machine.State} {rest : List Machine.HostInput} (hs : s.inputs = .hardwareReset :: rest) :
    Machine.step s = .next (Machine.hardwareReset { s with inputs := rest }) := by
  simp [Machine.step, Machine.fetch, hs]

end Sys2Proof.Encoding

namespace Sys2Proof.Machine

/-! ### Operands out of range (R65) -/

theorem bitOperand_of_gt {x : Byte} (h : ¬ x.toNat ≤ 1) : bitOperand x = none := by
  revert x; decide

theorem indexOperand_of_gt {k : Byte} (h : ¬ k.toNat ≤ 7) : indexOperand k = none := if_neg h

theorem selectOperand_of_gt {sel : Byte} (h : ¬ sel.toNat ≤ 5) (b : Block) : selectOperand sel b = none := by
  unfold selectOperand
  split
  case h_7 => rfl
  all_goals omega

/-- Only four commands have an operand check that can fail, and each answers as an illegal word does. -/
theorem exec_of_not_wellFormed {i : Instr} (h : ¬ i.WellFormed) (s : State) :
    exec i s = .next (illegalCommand s) := by
  cases i with
  | owwbit x => simp only [exec, execOwwbit, bitOperand_of_gt (of_decide_eq_false (Bool.of_not_eq_true h))]
  | idrd k => simp only [exec, execIdrd, indexOperand_of_gt (of_decide_eq_false (Bool.of_not_eq_true h))]
  | idwr k v => simp only [exec, execIdwr, indexOperand_of_gt (of_decide_eq_false (Bool.of_not_eq_true h))]
  | strd sel => simp only [exec, execStrd, selectOperand_of_gt (of_decide_eq_false (Bool.of_not_eq_true h))]
  | _ => exact absurd rfl h

/-! ### The response word (R62) -/

theorem word_status (r : Response) : r.word.extractLsb' 8 8 = r.status.code :=
  BitVec.extractLsb'_append_eq_left

theorem word_data (r : Response) : r.word.extractLsb' 0 8 = r.data :=
  BitVec.extractLsb'_append_eq_right

end Sys2Proof.Machine

open Sys2Proof Sys2Proof.Machine Sys2Proof.Encoding

/-- Settles O1: the decoder's arm for each operation code checks exactly what makes the command well formed. -/
theorem decodeOfEncodeIsTheCommand : Obligations.DecodeOfEncodeIsTheCommand := fun _ => decode_encode

/-- Settles O2: each arm of the decoder puts the word's fields into its command unchanged. -/
theorem encodeOfDecodeIsTheWord : Obligations.EncodeOfDecodeIsTheWord := fun _ _ h =>
  And.comm.mp (encode_of_decode h)

/-- Settles O4: the decoder evaluated on the thirteen words. -/
theorem writtenOutWordsDecode : Obligations.WrittenOutWordsDecode := by
  unfold Obligations.WrittenOutWordsDecode
  decide

/-- Settles O6: an operand out of range has no value, so the command answers as an illegal word does. -/
theorem operandOutOfRangeIsIllegal : Obligations.OperandOutOfRangeIsIllegal := fun _ s h =>
  exec_of_not_wellFormed h s

/-- Settles O7: a fetched word is decoded and run, and a presented command's word decodes to that command. -/
theorem stepRunsTheDecodedCommand : Obligations.StepRunsTheDecodedCommand :=
  ⟨fun _ _ _ _ => step_of_decode, fun _ _ h => step_of_encode h rfl, fun _ => step_of_idle⟩

/-- Settles O9: the word is the code and `DATA` side by side. -/
theorem responseWordLayout : Obligations.ResponseWordLayout :=
  ⟨fun r => ⟨word_status r, word_data r⟩, rfl, rfl, rfl, rfl, rfl, rfl, rfl, rfl⟩

end

section
/-! PROOFS. What a traversal can do, said once (spec/43_search.md R141 to R149, R155): one position as an equation over
the search cursor, the invariant its loop keeps, and the outcomes of a whole traversal with their slot counts. -/

namespace Sys2Proof.Machine

/-! ### Slots (R155) -/

@[simp] theorem slotCount_append (es fs : List LineEvent) : slotCount (es ++ fs) = slotCount es + slotCount fs :=
  List.countP_append

@[simp] theorem slotCount_resetEvents (b : Block) (r : List Bool) : slotCount (resetEvents b r) = 1 := rfl

@[simp] theorem slotCount_readEvents (b : Block) (r : List Bool) : slotCount (readEvents b r) = 1 := rfl

@[simp] theorem slotCount_writeEvents (b : Block) (bit : Bool) : slotCount (writeEvents b bit) = 1 := by
  cases bit <;> rfl

/-- A run of slot sequences, each of `m` slots. -/
theorem slotCount_flatMap {α : Type} {f : α → List LineEvent} {m : Nat} (h : ∀ a, slotCount (f a) = m) (l : List α) :
    slotCount (l.flatMap f) = l.length * m := by
  rw [slotCount, List.countP_flatMap]
  exact List.sum_eq_card_nsmul _ m (by simpa [slotCount] using fun a _ => h a) |>.trans (by simp)

theorem slotCount_bracket (es : List LineEvent) : slotCount (.crit true :: es ++ [.crit false]) = slotCount es := by
  rw [slotCount_append]
  rfl

@[simp] theorem slotCount_writeByteEvents (b : Block) (v : Byte) : slotCount (writeByteEvents b v) = 8 := by
  rw [writeByteEvents, slotCount_bracket, slotCount_flatMap fun i => slotCount_writeEvents b (v.getLsbD i)]
  rfl

@[simp] theorem slotCount_readByteEvents (b : Block) (r : List Bool) : slotCount (readByteEvents b r) = 8 := by
  rw [readByteEvents, slotCount_bracket, slotCount_flatMap fun i => slotCount_readEvents b (slotSamples r i)]
  rfl

/-- Between the two states the line has done `n` slot-level operations. -/
def AddsSlots (n : Nat) (s t : State) : Prop := ∃ es, t.trace = s.trace ++ es ∧ slotCount es = n

theorem AddsSlots.refl (s : State) : AddsSlots 0 s s := ⟨[], (List.append_nil _).symm, rfl⟩

theorem AddsSlots.trans {m n : Nat} {s t u : State} (h : AddsSlots m s t) (k : AddsSlots n t u) :
    AddsSlots (m + n) s u := by
  obtain ⟨es, hes, rfl⟩ := h
  obtain ⟨fs, hfs, rfl⟩ := k
  exact ⟨es ++ fs, by rw [hfs, hes, List.append_assoc], slotCount_append es fs⟩

/-- What the bit and byte procedures do, as far as other commands depend on it: they touch the active line and `CRIT`
only, keep the search cursor, and take `n` slots. -/
structure SlotRun (n : Nat) (s t : State) : Prop where
  frame  : BusFrame s t
  cursor : searchState t.blk = searchState s.blk
  slots  : AddsSlots n s t

theorem SlotRun.refl (s : State) : SlotRun 0 s s := ⟨BusFrame.refl s, rfl, AddsSlots.refl s⟩

theorem busReset_run (s : State) : SlotRun 1 s (busReset s).2 := by
  refine ⟨busReset_frame s, ?_, ?_⟩
  · rw [busReset_eq]
    rfl
  · rw [busReset_eq]
    exact ⟨_, rfl, slotCount_resetEvents ..⟩

theorem writeBit_run (b : Bool) (s : State) : SlotRun 1 s (writeBit b s) := by
  refine ⟨writeBit_frame b s, ?_, ?_⟩
  · rw [writeBit_eq]
    rfl
  · rw [writeBit_eq]
    exact ⟨_, rfl, slotCount_writeEvents ..⟩

theorem readBit_run (s : State) : SlotRun 1 s (readBit s).2 := by
  refine ⟨readBit_frame s, ?_, ?_⟩
  · rw [readBit_eq]
    rfl
  · rw [readBit_eq]
    exact ⟨_, rfl, slotCount_readEvents ..⟩

theorem writeByte_run (v : Byte) (s : State) : SlotRun 8 s (writeByte v s) := by
  refine ⟨writeByte_frame v s, ?_, ?_⟩
  · rw [writeByte_eq]
    rfl
  · rw [writeByte_eq]
    exact ⟨_, rfl, slotCount_writeByteEvents ..⟩

theorem readByte_run (s : State) : SlotRun 8 s (readByte s).2 := by
  refine ⟨readByte_frame s, ?_, ?_⟩
  · rw [readByte_eq]
    rfl
  · rw [readByte_eq]
    exact ⟨_, rfl, slotCount_readByteEvents ..⟩

/-! ### One position of the traversal (R141, lines 10 to 27) -/

/-- What a position whose two bits are not both 1 makes of the transient state and of the search cursor. -/
def recordPair (idb cmp : Bool) (t : Traversal) (c : SearchState) : Traversal × SearchState :=
  let dir := searchDirection c.ld c.id t.n idb cmp
  let id := setIdBit c.id t.n dir
  ({ t with
      n := t.n + 1
      lastZero := if takesZero idb cmp dir then t.n else t.lastZero
      sCrc := if positionBit t.n = 7 then crc8Update t.sCrc (idByte id (positionByte t.n)) else t.sCrc },
   { c with
      id := id
      lfd := if takesZero idb cmp dir && decide (t.n < 9) then BitVec.ofNat 8 t.n else c.lfd })

theorem recordDirection_afterSlot (idb cmp : Bool) (t : Traversal) (b : Block) :
    recordDirection idb cmp (searchDirection b.ld b.id t.n idb cmp) t (afterSlot b) =
      ((recordPair idb cmp t (searchState b)).1,
        setSearchState (recordPair idb cmp t (searchState b)).2 (afterSlot b)) := rfl

theorem afterSlot_setSearchState (c : SearchState) (b : Block) :
    afterSlot (setSearchState c b) = setSearchState c (afterSlot b) := rfl

/-- The ten raw samples of the state's next read slot. -/
def firstSamples (s : State) : List Bool := rawBits 10 s.samples s.draws

/-- The ten raw samples of the read slot after it. -/
def secondSamples (s : State) : List Bool := firstSamples (afterSamples 10 s)

/-- The events of the two read slots of a position. -/
def pairEvents (s : State) : List LineEvent :=
  readEvents s.blk (firstSamples s) ++ readEvents s.blk (secondSamples s)

theorem readBit_twice (s : State) :
    (readBit s).1 = majority (firstSamples s) ∧
    readBit (readBit s).2 = (majority (secondSamples s),
      { afterSamples 20 s with blk := afterSlot s.blk, trace := s.trace ++ pairEvents s }) := by
  have hsamples : afterSamples 20 s = afterSamples 10 (afterSamples 10 s) := (afterSamples_add 10 10 s).symm
  rw [readBit_eq, hsamples]
  refine ⟨rfl, ?_⟩
  rw [readBit_eq, afterSlot_twice, readEvents_afterSlot, List.append_assoc]
  rfl

/-- Both bits 1: the abort mark after the two read slots. -/
theorem searchPosition_of_ones {t : Traversal} {s : State} (h1 : majority (firstSamples s) = true)
    (h2 : majority (secondSamples s) = true) :
    searchPosition t s = ({ t with abort := true },
      { afterSamples 20 s with blk := afterSlot s.blk, trace := s.trace ++ pairEvents s }) := by
  obtain ⟨hfirst, hsecond⟩ := readBit_twice s
  rw [searchPosition_cases, hfirst, hsecond, h1, h2]
  rfl

/-- Any other pair is recorded and its direction written. -/
theorem searchPosition_of_pair {t : Traversal} {s : State} {idb cmp : Bool} (h1 : majority (firstSamples s) = idb)
    (h2 : majority (secondSamples s) = cmp) (h : (idb && cmp) = false) :
    searchPosition t s = ((recordPair idb cmp t (searchState s.blk)).1,
      { afterSamples 20 s with
        blk := setSearchState (recordPair idb cmp t (searchState s.blk)).2 (afterSlot s.blk)
        trace := s.trace ++ pairEvents s ++
          writeEvents s.blk (searchDirection s.blk.ld s.blk.id t.n idb cmp) }) := by
  obtain ⟨hfirst, hsecond⟩ := readBit_twice s
  rw [searchPosition_cases, hfirst, hsecond, h1, h2, h]
  simp only [Bool.false_eq_true, if_false]
  rw [writeBit_eq]
  simp only [recordDirection_afterSlot, afterSlot_setSearchState, afterSlot_twice]
  rfl

/-- A position adds two slots and ends the loop, or records the pair it read and adds three. -/
theorem searchPosition_result (t : Traversal) (s : State) :
    ((searchPosition t s).1 = { t with abort := true } ∧
      searchState (searchPosition t s).2.blk = searchState s.blk ∧ AddsSlots 2 s (searchPosition t s).2) ∨
    ∃ idb cmp, (searchPosition t s).1 = (recordPair idb cmp t (searchState s.blk)).1 ∧
      searchState (searchPosition t s).2.blk = (recordPair idb cmp t (searchState s.blk)).2 ∧
      AddsSlots 3 s (searchPosition t s).2 := by
  cases h1 : majority (firstSamples s) <;> cases h2 : majority (secondSamples s)
  case true.true =>
    rw [searchPosition_of_ones h1 h2]
    exact .inl ⟨rfl, rfl, _, rfl, by simp [pairEvents]⟩
  all_goals
    rw [searchPosition_of_pair h1 h2 rfl]
    exact .inr ⟨_, _, rfl, rfl, _, List.append_assoc .., by simp [pairEvents]⟩

/-! ### Identity bytes -/

theorem positionByte_lt {n : Nat} (h : n ≤ 64) : positionByte n < 8 := by
  unfold positionByte
  omega

theorem toList_setIdBit (id : Ident) (n : Nat) (b : Bool) :
    (setIdBit id n b).toList =
      id.toList.set (positionByte n) (setByteBit (idByte id (positionByte n)) (positionBit n) b) :=
  Vector.toList_setIfInBounds

theorem toList_getElem? (id : Ident) {k : Nat} (h : k < 8) : id.toList[k]? = some (idByte id k) := by
  rw [idByte, Vector.getElem?_toList, Vector.getElem?_eq_getElem h, Option.getD_some]

/-- A whole byte more of the identity. -/
theorem crc8_take_succ (id : Ident) {k : Nat} (h : k < 8) :
    crc8 (id.toList.take (k + 1)) = crc8Update (crc8 (id.toList.take k)) (idByte id k) := by
  rw [List.take_add_one, toList_getElem? id h]
  exact crc8_append_singleton _ _

/-! ### The loop's invariant -/

/-- The transient state describes the positions done: `last_zero` is one of them, and `s_crc` is the CRC of the bytes
already complete (R141, lines 22 to 27). -/
structure Replays (t : Traversal) (c : SearchState) : Prop where
  first    : 1 ≤ t.n
  bound    : t.n ≤ 65
  lastZero : t.lastZero < t.n
  crc      : t.sCrc = crc8 (c.id.toList.take ((t.n - 1) / 8))

theorem replays_start (c : SearchState) : Replays traversalStart c :=
  ⟨Nat.le_refl 1, by decide, Nat.zero_lt_one, rfl⟩

/-- Recording a direction leaves the bytes before its own alone, and `s_crc` takes in the byte that it completes. -/
theorem recordPair_replays {t : Traversal} {c : SearchState} (h : Replays t c) (hn : t.n ≤ 64) (idb cmp : Bool) :
    Replays (recordPair idb cmp t c).1 (recordPair idb cmp t c).2 := by
  obtain ⟨hfirst, -, hzero, hcrc⟩ := h
  have hpos : (t.n - 1) / 8 = positionByte t.n := rfl
  refine ⟨Nat.le_add_left 1 _, Nat.succ_le_succ hn, ?_, ?_⟩
  · show (if _ then t.n else t.lastZero) < t.n + 1
    split <;> omega
  · have hbefore : ∀ dir, crc8 ((setIdBit c.id t.n dir).toList.take (positionByte t.n)) = t.sCrc := fun dir => by
      rw [toList_setIdBit, List.take_set_of_le (Nat.le_refl _), hcrc, hpos]
    show (if positionBit t.n = 7 then _ else t.sCrc) = crc8 (List.take ((t.n + 1 - 1) / 8) _)
    split
    next h7 =>
      have hnext : (t.n + 1 - 1) / 8 = positionByte t.n + 1 := by
        unfold positionBit at h7
        unfold positionByte
        omega
      rw [hnext, crc8_take_succ _ (positionByte_lt hn)]
      exact congrArg (crc8Update · _) (hbefore _).symm
    next h7 =>
      have hnext : (t.n + 1 - 1) / 8 = positionByte t.n := by
        unfold positionBit at h7
        unfold positionByte
        omega
      rw [hnext]
      exact (hbefore _).symm

theorem recordPair_lfd_le (idb cmp : Bool) (t : Traversal) {c : SearchState} (h : c.lfd.toNat ≤ 8) :
    (recordPair idb cmp t c).2.lfd.toNat ≤ 8 := by
  show (if _ && decide (t.n < 9) then BitVec.ofNat 8 t.n else c.lfd).toNat ≤ 8
  split
  next hrec =>
    have : t.n < 9 := by simpa using (Bool.and_eq_true_iff.mp hrec).2
    rw [BitVec.toNat_ofNat]
    omega
  next => exact h

/-- What holds of the loop, started in `s`, when its transient state is `t` and its state is `u`. -/
structure LoopInv (s : State) (t : Traversal) (u : State) : Prop where
  replays : Replays t (searchState u.blk)
  ldf     : u.blk.ldf = s.blk.ldf
  lfd     : s.blk.lfd.toNat ≤ 8 → u.blk.lfd.toNat ≤ 8
  room    : t.abort = true → t.n ≤ 64
  slots   : AddsSlots (3 * (t.n - 1) + if t.abort then 2 else 0) s u

theorem loopInv_start (s : State) : LoopInv s traversalStart s :=
  ⟨replays_start _, rfl, id, nofun, AddsSlots.refl s⟩

/-- A position keeps the invariant, and is the last or leads to the next one. -/
theorem searchPosition_inv {s u : State} {t : Traversal} (h : LoopInv s t u) (hn : t.n ≤ 64)
    (hgo : t.abort = false) :
    LoopInv s (searchPosition t u).1 (searchPosition t u).2 ∧
      ((searchPosition t u).1.abort = false → (searchPosition t u).1.n = t.n + 1) := by
  obtain ⟨hreplays, hldf, hlfd, -, hslots⟩ := h
  have hfirst := hreplays.first
  simp only [hgo, Bool.false_eq_true, if_false, Nat.add_zero] at hslots
  obtain ⟨ht, hc, hadds⟩ | ⟨idb, cmp, ht, hc, hadds⟩ := searchPosition_result t u
  · rw [ht]
    refine ⟨⟨?_, (congrArg SearchState.ldf hc).trans hldf, fun hs => ?_, fun _ => hn,
      hslots.trans hadds⟩, fun hab => by cases hab⟩
    · rw [hc]
      exact ⟨hreplays.first, hreplays.bound, hreplays.lastZero, hreplays.crc⟩
    · exact (congrArg (BitVec.toNat ∘ SearchState.lfd) hc).trans_le (hlfd hs)
  · have hcount : 3 * (t.n - 1) + 3 = 3 * (t.n + 1 - 1) + if t.abort then 2 else 0 := by
      rw [hgo]
      simp only [Bool.false_eq_true, if_false]
      omega
    rw [ht]
    refine ⟨⟨?_, (congrArg SearchState.ldf hc).trans hldf, fun hs => ?_,
      fun hab => absurd (hgo.symm.trans hab) nofun, ?_⟩, fun _ => rfl⟩
    · rw [hc]
      exact recordPair_replays hreplays hn idb cmp
    · exact (congrArg (BitVec.toNat ∘ SearchState.lfd) hc).trans_le (recordPair_lfd_le idb cmp t (hlfd hs))
    · exact hcount ▸ hslots.trans hadds

theorem searchLoop_inv (k : Nat) {s u : State} {t : Traversal} (h : LoopInv s t u) (hgo : t.abort = false)
    (hk : t.n + k = 65) :
    LoopInv s (searchLoop k t u).1 (searchLoop k t u).2 ∧
      ((searchLoop k t u).1.abort = false → (searchLoop k t u).1.n = 65) := by
  induction k generalizing t u with
  | zero => exact ⟨h, fun _ => hk⟩
  | succ k ih =>
    obtain ⟨hinv, hnext⟩ := searchPosition_inv h (by omega) hgo
    simp only [searchLoop]
    split
    next hab => exact ⟨hinv, fun hgo' => by simp [hab] at hgo'⟩
    next hab =>
      have hgo' : (searchPosition t u).1.abort = false := by simpa using hab
      exact ih hinv hgo' (by rw [hnext hgo']; omega)

/-! ### The verdict (R141, lines 28 to 36; R148, R149) -/

theorem searchVerdict_eq (t : Traversal) (s : State) :
    searchVerdict t s =
      if t.abort then ((false, .noResponse), resetSearch s)
      else if t.sCrc ≠ 0 then ((false, .crcMismatch), resetSearch s)
      else if s.blk.id = zeroIdent then ((false, .zeroPayload), resetSearch s)
      else ((true, .ok), { s with blk := advanceCursor t.lastZero s.blk }) := rfl

/-- The verdict's four ways, with the condition of each. -/
theorem searchVerdict_cases (t : Traversal) (s : State) :
    (t.abort = true ∧ searchVerdict t s = ((false, .noResponse), resetSearch s)) ∨
    (t.abort = false ∧ t.sCrc ≠ 0 ∧ searchVerdict t s = ((false, .crcMismatch), resetSearch s)) ∨
    (t.abort = false ∧ t.sCrc = 0 ∧ s.blk.id = zeroIdent ∧
      searchVerdict t s = ((false, .zeroPayload), resetSearch s)) ∨
    (t.abort = false ∧ t.sCrc = 0 ∧ s.blk.id ≠ zeroIdent ∧
      searchVerdict t s = ((true, .ok), { s with blk := advanceCursor t.lastZero s.blk })) := by
  rw [searchVerdict_eq]
  split
  next hab => exact .inl ⟨hab, rfl⟩
  next hab =>
    have hgo := Bool.of_not_eq_true hab
    split
    next hcrc => exact .inr (.inl ⟨hgo, hcrc, rfl⟩)
    next hcrc =>
      have hzero := not_not.mp hcrc
      split
      next hid => exact .inr (.inr (.inl ⟨hgo, hzero, hid, rfl⟩))
      next hid => exact .inr (.inr (.inr ⟨hgo, hzero, hid, rfl⟩))

/-! ### The whole traversal -/

/-- The causes of a search that went to the bus and found no device (60_exceptions.md R211). -/
def busFailures : List Status := [.noPresence, .noResponse, .crcMismatch, .zeroPayload]

/-- What a traversal from `s` that reports a device leaves in `t` (R148, R155). -/
structure Found (s t : State) : Prop where
  valid : validIdent t.blk.id
  ld    : t.blk.ld.toNat ≤ 64
  lfd   : s.blk.lfd.toNat ≤ 8 → t.blk.lfd.toNat ≤ 8
  ldf   : t.blk.ldf = true ↔ t.blk.ld = 0
  slots : AddsSlots 201 s t

/-- What a traversal from `s` that went to the bus and failed leaves in `t` (R149, R155). -/
structure Failed (s t : State) : Prop where
  cursor : searchState t.blk = initialSearch
  slots  : ∃ n ≤ 201, AddsSlots n s t

/-- A verdict on a loop that began in `s`, nine slots after the traversal did in `s₀`. -/
theorem searchVerdict_result {s₀ s u : State} {t : Traversal} (h : LoopInv s t u) (hstart : AddsSlots 9 s₀ s)
    (hldf : s.blk.ldf = false) (hlfd : s.blk.lfd = s₀.blk.lfd) (hend : t.abort = false → t.n = 65) :
    (∃ c ∈ busFailures, (searchVerdict t u).1 = (false, c) ∧ Failed s₀ (searchVerdict t u).2) ∨
    ((searchVerdict t u).1 = (true, .ok) ∧ Found s₀ (searchVerdict t u).2) := by
  obtain ⟨⟨-, hbound, hzero, hsum⟩, hldf', hlfd', hroom, hslots⟩ := h
  have hfailed : Failed s₀ (resetSearch u) := by
    refine ⟨rfl, _, ?_, hstart.trans hslots⟩
    split
    next hab => have := hroom hab; omega
    next => omega
  obtain ⟨-, e⟩ | ⟨-, -, e⟩ | ⟨-, -, -, e⟩ | ⟨hgo, hcrc, hid, e⟩ := searchVerdict_cases t u
  · rw [e]; exact .inl ⟨_, by simp [busFailures], rfl, hfailed⟩
  · rw [e]; exact .inl ⟨_, by simp [busFailures], rfl, hfailed⟩
  · rw [e]; exact .inl ⟨_, by simp [busFailures], rfl, hfailed⟩
  · have hn := hend hgo
    have hld : (BitVec.ofNat 8 t.lastZero).toNat = t.lastZero := Nat.mod_eq_of_lt (by omega)
    simp only [hn, hgo] at hsum hslots
    rw [e]
    refine .inr ⟨rfl, ⟨?_, hid⟩, ?_, fun hle => hlfd' (hlfd ▸ hle), ?_, hstart.trans hslots⟩
    · have hwhole : u.blk.id.toList.take 8 = u.blk.id.toList := List.take_of_length_le (by simp)
      exact hwhole ▸ hsum.symm.trans hcrc
    · show (BitVec.ofNat 8 t.lastZero).toNat ≤ 64
      omega
    · show (if t.lastZero = 0 then true else u.blk.ldf) = true ↔ BitVec.ofNat 8 t.lastZero = 0
      rw [← BitVec.toNat_inj, hld, hldf'.trans hldf]
      split <;> simpa

/-- What a traversal can do: report exhaustion without touching the bus, fail on the bus with the cursor reset, or
report a device. -/
theorem searchTraverse_result (s : State) :
    (s.blk.ldf = true ∧ searchTraverse s = ((false, .searchExhausted), afterExhaustion s)) ∨
    (∃ c ∈ busFailures, (searchTraverse s).1 = (false, c) ∧ Failed s (searchTraverse s).2) ∨
    ((searchTraverse s).1 = (true, .ok) ∧ Found s (searchTraverse s).2) := by
  have hreset := busReset_run s
  have hbyte := writeByte_run Config.cmdSearchRom (busReset s).2
  obtain h | ⟨-, -, e⟩ | ⟨hldf, -, t, u, hloop, e⟩ := searchTraverse_cases s
  · exact .inl h
  · rw [e]
    exact .inr (.inl ⟨_, by simp [busFailures], rfl, rfl, 1, by decide, hreset.slots⟩)
  · have hcursor := hbyte.cursor.trans hreset.cursor
    obtain ⟨hinv, hend⟩ := searchLoop_inv 64 (loopInv_start (writeByte Config.cmdSearchRom (busReset s).2)) rfl rfl
    rw [hloop] at hinv hend
    rw [e]
    exact .inr (searchVerdict_result hinv (hreset.slots.trans hbyte.slots)
      ((congrArg SearchState.ldf hcursor).trans hldf) (congrArg SearchState.lfd hcursor) hend)

end Sys2Proof.Machine
end

section
/-! PROOFS. What a command can do, said once, and what follows for every command: one response each (spec/30_encoding.md
R60), who writes which register (spec/44_host_access.md R173), which line is driven (spec/10_state.md R12), what a
search reports (spec/43_search.md R149) and how many slots a command takes (R155). -/

namespace Sys2Proof.Machine

/-! ### The cursor a search starts with (R150, R152, R153) -/

/-- The state in which a search command's traversal begins. -/
def startState (i : Instr) (s : State) : State :=
  { s with blk := setSearchState (startCursor (searchState s.blk) i) s.blk }

/-- `SRCHFIRST` and `SRCHNEXT` answer what their traversal answers. -/
theorem exec_search_eq {i : Instr} {s : State} (hi : i = .srchfirst ∨ i = .srchnext) :
    exec i s = .next (respond
      (searchResponse (searchTraverse (startState i s)).1.1 (searchTraverse (startState i s)).1.2)
      (searchTraverse (startState i s)).2) := by
  obtain rfl | rfl := hi
  · exact exec_srchfirst s
  · exact exec_srchnext s

theorem exec_srchverify_eq (s : State) :
    exec .srchverify s = .next (respond
      (verifyResponse (searchTraverse (startState .srchverify s)).1.1 (searchTraverse (startState .srchverify s)).1.2
        ((searchTraverse (startState .srchverify s)).2.blk.id == s.blk.id))
      { (searchTraverse (startState .srchverify s)).2 with
        blk := setSearchState (searchState s.blk) (searchTraverse (startState .srchverify s)).2.blk }) :=
  exec_srchverify s

/-- The change of the cursor before a traversal and the traversal itself are in the frame. -/
theorem search_frame (i : Instr) (s : State) : BusFrame s (searchTraverse (startState i s)).2 :=
  (setSearchState_frame _ s).trans (searchTraverse_frame _)

/-! ### The commands' effects -/

theorem presentedTiming_state (s : State) :
    (presentedTiming s).2 = { s with store := s.store.drop 1, draws := s.draws + (1 - s.store.length) } := by
  cases h : s.store <;> simp [presentedTiming, h]

/-- What a command does between its word and its response: a register that the rules let some commands only write
changes in the constructor of those commands. -/
inductive Effect (s : State) : Instr → State → Prop where
  | timing (lt : TimingTable Duration) (store : List (TimingTable Nat)) (draws : Nat) (r : Response) :
      Effect s .init (respond r { s with blk := { s.blk with lt := lt }, store := store, draws := draws })
  | channel (n c : Byte) (hc : c.toNat < s.blk.lines.length ∨ c = s.blk.ch) (r : Response) :
      Effect s (.selch n) (respond r { s with blk := { s.blk with ch := c } })
  | validator {i : Instr} (hi : i = .crcinit ∨ ∃ v, i = .crcupd v) (acc : Byte) (nz : Bool) (r : Response) :
      Effect s i (respond r { s with blk := { s.blk with crcAcc := acc, nz := nz } })
  | identity (k v : Byte) (id : Ident) (r : Response) :
      Effect s (.idwr k v) (respond r { s with blk := { s.blk with id := id } })
  | search {i : Instr} (hi : i = .srchfirst ∨ i = .srchnext) (r : Response) :
      Effect s i (respond r (searchTraverse (startState i s)).2)
  | bus {i : Instr} {u : State} {n : Nat} (r : Response) (hn : n ≤ 201) (hu : SlotRun n s u) :
      Effect s i (respond r u)

theorem Effect.quiet (i : Instr) (s : State) (r : Response) : Effect s i (respond r s) :=
  .bus r (Nat.zero_le _) (SlotRun.refl s)

theorem delay_run (name : WaitName) (d : Nat) (s : State) : SlotRun 0 s (delay name d s) :=
  ⟨⟨rfl, rfl, rfl, rfl, rfl, rfl, rfl, rfl, .inl rfl, .inl rfl, _, rfl, by simp [eventOn]⟩, rfl, _, rfl, rfl⟩

theorem afterExhaustion_slots (s : State) : AddsSlots 0 s (afterExhaustion s) := by
  unfold afterExhaustion
  split
  · exact AddsSlots.refl s
  · exact ⟨[], (List.append_nil _).symm, rfl⟩

/-- R155: a traversal takes at most the slots of a whole one. -/
theorem searchTraverse_slots (s : State) : ∃ n ≤ 201, AddsSlots n s (searchTraverse s).2 := by
  obtain ⟨-, e⟩ | ⟨c, -, -, hfailed⟩ | ⟨-, hfound⟩ := searchTraverse_result s
  · rw [e]
    exact ⟨0, Nat.zero_le _, afterExhaustion_slots s⟩
  · exact hfailed.slots
  · exact ⟨201, Nat.le_refl _, hfound.slots⟩

/-- R153: the cursor `SRCHVERIFY` forces before its traversal and the one it restores after it are both in the frame. -/
theorem srchverify_run (s : State) : ∃ n ≤ 201, SlotRun n s { (searchTraverse (startState .srchverify s)).2 with
    blk := setSearchState (searchState s.blk) (searchTraverse (startState .srchverify s)).2.blk } := by
  obtain ⟨n, hn, hslots⟩ := searchTraverse_slots (startState .srchverify s)
  exact ⟨n, hn, (search_frame .srchverify s).trans (setSearchState_frame _ _), rfl, hslots⟩

theorem selected_channel (n : Byte) (b : Block) :
    (if n.toNat < b.lines.length then n else b.ch).toNat < b.lines.length ∨
      (if n.toNat < b.lines.length then n else b.ch) = b.ch := by
  split
  next h => exact .inl h
  next => exact .inr rfl

theorem exec_effect (i : Instr) (s : State) : ∃ t, exec i s = .next t ∧ Effect s i t := by
  by_cases hwf : i.WellFormed
  case neg => exact ⟨_, exec_of_not_wellFormed hwf s, .quiet i s _⟩
  cases i with
  | init =>
    rw [exec_init, presentedTiming_state]
    exact ⟨_, rfl, .timing ..⟩
  | selch n =>
    rw [exec_selch, selectChannel_eq]
    exact ⟨_, rfl, .channel n _ (selected_channel n s.blk) _⟩
  | waitconv => exact ⟨_, exec_waitconv s, .bus _ (by decide) (delay_run ..)⟩
  | owreset => exact ⟨_, exec_owreset s, .bus _ (by decide) (busReset_run s)⟩
  | owwbit x =>
    obtain ⟨bit, hbit⟩ := exists_bitOperand (of_decide_eq_true hwf)
    exact ⟨_, exec_owwbit hbit s, .bus _ (by decide) (writeBit_run bit s)⟩
  | owrbit => exact ⟨_, exec_owrbit s, .bus _ (by decide) (readBit_run s)⟩
  | owwbyte v => exact ⟨_, exec_owwbyte v s, .bus _ (by decide) (writeByte_run v s)⟩
  | owrbyte => exact ⟨_, exec_owrbyte s, .bus _ (by decide) (readByte_run s)⟩
  | crcinit => exact ⟨_, exec_crcinit s, .validator (.inl rfl) ..⟩
  | crcupd v => exact ⟨_, exec_crcupd v s, .validator (.inr ⟨v, rfl⟩) ..⟩
  | crcchk v => exact ⟨_, exec_crcchk v s, .quiet ..⟩
  | srchfirst => exact ⟨_, exec_search_eq (.inl rfl), .search (.inl rfl) _⟩
  | srchnext => exact ⟨_, exec_search_eq (.inr rfl), .search (.inr rfl) _⟩
  | srchverify =>
    obtain ⟨n, hn, hrun⟩ := srchverify_run s
    exact ⟨_, exec_srchverify_eq s, .bus _ hn hrun⟩
  | idrd k => exact ⟨_, exec_idrd (of_decide_eq_true hwf) s, .quiet ..⟩
  | idwr k v => exact ⟨_, exec_idwr (of_decide_eq_true hwf) v s, .identity ..⟩
  | strd sel =>
    obtain ⟨v, hv⟩ := exists_selectOperand (of_decide_eq_true hwf) s.blk
    exact ⟨_, exec_strd hv, .quiet ..⟩

/-- The effect of a command that has run. -/
theorem effect_of_exec {i : Instr} {s t : State} (h : exec i s = .next t) : Effect s i t := by
  obtain ⟨u, hu, heffect⟩ := exec_effect i s
  cases h.symm.trans hu
  exact heffect

/-! ### Frames of every command -/

theorem BusFrame.lines_length {s t : State} (h : BusFrame s t) : t.blk.lines.length = s.blk.lines.length := by
  obtain e | e := h.lines
  · rw [e]
  · rw [e, afterSlot_lines, List.length_modify]

theorem BusFrame.lines_other {s t : State} (h : BusFrame s t) {k : Nat} (hk : k ≠ s.blk.ch.toNat) :
    t.blk.lines[k]? = s.blk.lines[k]? := by
  obtain e | e := h.lines
  · rw [e]
  · rw [e, afterSlot_lines, List.getElem?_modify_ne _ _ hk.symm]

theorem Effect.one_response {s t : State} {i : Instr} (h : Effect s i t) :
    t.inputs = s.inputs ∧ ∃ r, t.responses = s.responses ++ [r] := by
  cases h with
  | timing | channel | validator | identity => exact ⟨rfl, _, rfl⟩
  | search hi =>
    have hframe := search_frame i s
    exact ⟨hframe.inputs, _, congrArg (· ++ _) hframe.responses⟩
  | bus r hn hu => exact ⟨hu.frame.inputs, _, congrArg (· ++ _) hu.frame.responses⟩

theorem step_one_response {s : State} {w : CmdWord} {rest : List HostInput} (hs : s.inputs = .command w :: rest) :
    ∃ t r, step s = .next t ∧ t.inputs = rest ∧ t.responses = s.responses ++ [r] := by
  cases hw : decode w with
  | ok i =>
    obtain ⟨t, ht, heffect⟩ := exec_effect i { s with inputs := rest }
    obtain ⟨hinputs, r, hr⟩ := heffect.one_response
    exact ⟨t, r, (Encoding.step_of_decode hs hw).trans ht, hinputs, hr⟩
  | error e =>
    have hfails : ¬ ∃ i, decode w = .ok i := fun ⟨i, hi⟩ => by cases hw.symm.trans hi
    exact ⟨_, _, Encoding.step_of_decode_fails hs hfails, rfl, rfl⟩

theorem Effect.other_lines {s t : State} {i : Instr} (h : Effect s i t) :
    (∀ k, k ≠ s.blk.ch.toNat → t.blk.lines[k]? = s.blk.lines[k]?) ∧
      ∃ es, t.trace = s.trace ++ es ∧ ∀ e ∈ es, eventOn s.blk.ch e := by
  cases h with
  | timing | channel | validator | identity =>
    exact ⟨fun _ _ => rfl, [], (List.append_nil _).symm, List.forall_mem_nil _⟩
  | search hi =>
    have hframe := search_frame i s
    exact ⟨fun _ => hframe.lines_other, hframe.trace⟩
  | bus r hn hu => exact ⟨fun _ => hu.frame.lines_other, hu.frame.trace⟩

theorem Effect.writers {s t : State} {i : Instr} (h : Effect s i t) :
    ((∀ n, i ≠ .selch n) → t.blk.ch = s.blk.ch) ∧
    (i ≠ .init → t.blk.lt = s.blk.lt ∧ t.store = s.store) ∧
    (i ≠ .crcinit → (∀ v, i ≠ .crcupd v) → t.blk.crcAcc = s.blk.crcAcc ∧ t.blk.nz = s.blk.nz) ∧
    (i ≠ .srchfirst → i ≠ .srchnext → t.blk.ld = s.blk.ld ∧ t.blk.lfd = s.blk.lfd ∧ t.blk.ldf = s.blk.ldf) ∧
    (i ≠ .srchfirst → i ≠ .srchnext → (∀ k v, i ≠ .idwr k v) → ∀ k, memRead t.blk k = memRead s.blk k) ∧
    t.policy = s.policy ∧ t.inputs = s.inputs ∧ t.blk.lines.length = s.blk.lines.length := by
  cases h with
  | timing => exact ⟨fun _ => rfl, fun hi => absurd rfl hi, by simp, by simp, fun _ _ _ _ => rfl, rfl, rfl, rfl⟩
  | channel n =>
    exact ⟨fun hi => absurd rfl (hi n), by simp, by simp, by simp, fun _ _ _ _ => rfl, rfl, rfl, rfl⟩
  | validator hi =>
    refine ⟨fun _ => rfl, by simp, fun hinit hupd => ?_, by simp, fun _ _ _ _ => rfl, rfl, rfl, rfl⟩
    obtain rfl | ⟨v, rfl⟩ := hi
    · exact absurd rfl hinit
    · exact absurd rfl (hupd v)
  | identity k v =>
    exact ⟨fun _ => rfl, by simp, by simp, by simp, fun _ _ hi => absurd rfl (hi k v), rfl, rfl, rfl⟩
  | search hi =>
    have hframe := search_frame i s
    have hnot {p : Prop} (h1 : i ≠ .srchfirst) (h2 : i ≠ .srchnext) : p := absurd hi (by simp [h1, h2])
    exact ⟨fun _ => hframe.ch, fun _ => ⟨hframe.lt, hframe.store⟩, fun _ _ => ⟨hframe.crcAcc, hframe.nz⟩, hnot,
      fun h1 h2 => hnot h1 h2, hframe.policy, hframe.inputs, hframe.lines_length⟩
  | bus r hn hu =>
    obtain ⟨hframe, hcursor, -⟩ := hu
    obtain ⟨hld, hlfd, hldf, hid⟩ := SearchState.mk.inj hcursor
    exact ⟨fun _ => hframe.ch, fun _ => ⟨hframe.lt, hframe.store⟩, fun _ _ => ⟨hframe.crcAcc, hframe.nz⟩,
      fun _ _ => ⟨hld, hlfd, hldf⟩, fun _ _ _ k => congrArg (idByte · k) hid, hframe.policy, hframe.inputs,
      hframe.lines_length⟩

/-! ### What a search reports and how many slots a command takes -/

theorem Effect.slots {s t : State} {i : Instr} (h : Effect s i t) : ∃ n ≤ 201, AddsSlots n s t := by
  cases h with
  | timing | channel | validator | identity => exact ⟨0, Nat.zero_le _, AddsSlots.refl s⟩
  | search hi => exact searchTraverse_slots (startState i s)
  | bus r hn hu => exact ⟨_, hn, hu.slots⟩

theorem AddsSlots.count_eq {n : Nat} {s t : State} (h : AddsSlots n s t) {es : List LineEvent}
    (hes : t.trace = s.trace ++ es) : slotCount es = n := by
  obtain ⟨fs, hfs, rfl⟩ := h
  rw [List.append_cancel_left (hes.symm.trans hfs)]

/-- What a `SRCHFIRST` or `SRCHNEXT` answers, and what it leaves with each answer (R148, R149). -/
theorem search_reports {i : Instr} (hi : i = .srchfirst ∨ i = .srchnext) {s t : State} {r : Response}
    (h : exec i s = .next t) (hr : t.responses = s.responses ++ [r]) :
    r.status = .searchExhausted ∨ (r.status ∈ busFailures ∧ searchState t.blk = initialSearch) ∨
      (r = ⟨.ok, 1⟩ ∧ validIdent t.blk.id ∧ (t.blk.ldf = true ↔ t.blk.ld = 0) ∧ AddsSlots 201 s t) := by
  obtain rfl := Host.Outcome.next.inj ((exec_search_eq hi).symm.trans h)
  have hr' : r = searchResponse (searchTraverse (startState i s)).1.1 (searchTraverse (startState i s)).1.2 := by
    rw [respond_responses, (search_frame i s).responses] at hr
    exact (List.singleton_inj.mp (List.append_cancel_left hr)).symm
  obtain ⟨-, e⟩ | ⟨c, hc, e, hfailed⟩ | ⟨e, hfound⟩ := searchTraverse_result (startState i s)
  · rw [e] at hr'
    exact .inl (congrArg Response.status hr')
  · rw [e] at hr'
    exact .inr (.inl ⟨hr' ▸ hc, hfailed.cursor⟩)
  · rw [e] at hr'
    exact .inr (.inr ⟨hr', hfound.valid, hfound.ldf, hfound.slots⟩)

end Sys2Proof.Machine

open Sys2Proof Sys2Proof.Machine

/-- Settles O8: a word that decodes is run, and every command answers once; any other word is an illegal command. -/
theorem everyCommandGivesOneResponse : Obligations.EveryCommandGivesOneResponse := fun _ _ _ => step_one_response

/-- Settles O15: the effect of each command, read register by register. -/
theorem onlyNamedCommandsWriteARegister : Obligations.OnlyNamedCommandsWriteARegister := fun _ _ _ h =>
  (effect_of_exec h).writers

/-- Settles O16: every effect on a line is in the frame of the bus operations. -/
theorem onlyTheActiveLineIsDriven : Obligations.OnlyTheActiveLineIsDriven := fun _ _ _ h =>
  (effect_of_exec h).other_lines

/-- Settles O43: `OK` comes from a verdict on 64 recorded positions, and every other outcome but exhaustion resets the
cursor. -/
theorem searchReportsWholeIdentitiesOnly : Obligations.SearchReportsWholeIdentitiesOnly := by
  intro i s t r hi h hr
  obtain hc | ⟨hc, hcursor⟩ | ⟨rfl, hvalid, hldf, -⟩ := search_reports hi h hr
  · exact ⟨fun hok => absurd (hc.symm.trans hok) nofun, fun hfail => absurd (hc ▸ hfail) (by decide)⟩
  · exact ⟨fun hok => absurd (hok ▸ hc) (by decide), fun _ => hcursor⟩
  · exact ⟨fun _ => ⟨rfl, hvalid, hldf⟩, fun hfail => absurd hfail (by decide)⟩

/-- Settles O44: the loop takes three slots for each of at most 64 positions, after the nine of the reset and the
command byte. -/
theorem slotsOfACommandAreBounded : Obligations.SlotsOfACommandAreBounded := by
  intro i s t h
  obtain ⟨n, hn, es, hes, rfl⟩ := (effect_of_exec h).slots
  refine ⟨es, hes, hn, fun hi hr => ?_⟩
  obtain hc | ⟨hc, -⟩ | ⟨-, -, -, hslots⟩ := search_reports hi h hr
  · cases hc
  · simp [busFailures] at hc
  · exact hslots.count_eq hes

end

section
/-! PROOFS. Reset and the legal states (spec/70_reset_and_hazards.md R230; spec/10_state.md R10 to R26): the reset
values, the reset event, and that every step keeps the legal states. -/

namespace Sys2Proof.Machine

/-! ### The reset state (R230) -/

theorem nChannels_range : 1 ≤ Config.nChannels ∧ Config.nChannels ≤ 256 :=
  ⟨Nat.le_add_left 1 _, Config.nChannelsPred.isLt⟩

@[simp] theorem afterReset_lines (n : Nat) (lt : TimingTable Duration) :
    (Block.afterReset n lt).lines = List.replicate n LineDriver.released := rfl

theorem idByte_zeroIdent (k : Nat) : idByte zeroIdent k = 0 := by
  rw [idByte, zeroIdent, Vector.getElem?_replicate]
  split <;> rfl

/-- The registers after reset are legal for every admissible number of channels. -/
theorem inv_afterReset {s : State} {n : Nat} {lt : TimingTable Duration} (hn : 1 ≤ n ∧ n ≤ 256)
    (hs : s.blk = Block.afterReset n lt) : Inv s := by
  have hlines : s.blk.lines = List.replicate n LineDriver.released := by rw [hs, afterReset_lines]
  have hlen : s.blk.lines.length = n := by rw [hlines, List.length_replicate]
  refine ⟨hlen.symm ▸ hn, ?_, fun l hl => List.eq_of_mem_replicate (hlines ▸ hl), ?_, ?_, ?_, ?_⟩
  · rw [hlen, hs]
    exact hn.1
  all_goals simp [hs, Block.afterReset]

/-! ### Legal states are kept -/

/-- Only the registers make a state legal. -/
theorem Inv.of_blk {s t : State} (h : Inv s) (hb : t.blk = s.blk) : Inv t := by
  obtain ⟨hchannels, hactive, hreleased, hcrit, hld, hlfd, hldf⟩ := h
  constructor <;> rwa [hb]

/-- The search cursor's part of the legal states. -/
def LegalCursor (c : SearchState) : Prop := c.ld.toNat ≤ 64 ∧ c.lfd.toNat ≤ 8 ∧ (c.ldf = true → c.ld = 0)

theorem Inv.cursor {s : State} (h : Inv s) : LegalCursor (searchState s.blk) := ⟨h.ldRange, h.lfdRange, h.lastFlag⟩

theorem legalCursor_initial : LegalCursor initialSearch := ⟨by decide, by decide, nofun⟩

theorem searchTraverse_legalCursor {s : State} (h : LegalCursor (searchState s.blk)) :
    LegalCursor (searchState (searchTraverse s).2.blk) := by
  obtain ⟨-, e⟩ | ⟨c, -, -, hfailed⟩ | ⟨-, hfound⟩ := searchTraverse_result s
  · rw [e]
    show LegalCursor (searchState (afterExhaustion s).blk)
    unfold afterExhaustion
    split
    · exact h
    · exact legalCursor_initial
  · rw [hfailed.cursor]
    exact legalCursor_initial
  · exact ⟨hfound.ld, hfound.lfd h.2.1, hfound.ldf.mp⟩

/-- A bus operation leaves the lines released and `CRIT` low, so only the cursor has to be looked at. -/
theorem BusFrame.inv {s t : State} (h : BusFrame s t) (hs : Inv s) (hc : LegalCursor (searchState t.blk)) : Inv t := by
  obtain ⟨hld, hlfd, hldf⟩ := hc
  refine ⟨h.lines_length.symm ▸ hs.channels, ?_, ?_, ?_, hld, hlfd, hldf⟩
  · rw [h.ch, h.lines_length]
    exact hs.active
  · obtain e | e := h.lines
    · rw [e]
      exact hs.released
    · rw [e, afterSlot_lines]
      intro l hl
      obtain ⟨k, hk, rfl⟩ := List.getElem_of_mem hl
      rw [List.getElem_modify]
      split
      · rfl
      · exact hs.released _ (List.getElem_mem _)
  · obtain e | e := h.crit
    · rw [e]
      exact hs.critLow
    · exact e

theorem Effect.inv {s t : State} {i : Instr} (h : Effect s i t) (hs : Inv s) : Inv t := by
  obtain ⟨hchannels, hactive, hreleased, hcrit, hld, hlfd, hldf⟩ := id hs
  cases h with
  | timing | validator | identity => exact ⟨hchannels, hactive, hreleased, hcrit, hld, hlfd, hldf⟩
  | channel n c hc =>
    refine ⟨hchannels, ?_, hreleased, hcrit, hld, hlfd, hldf⟩
    obtain hlt | rfl := hc
    · exact hlt
    · exact hactive
  | search hi =>
    refine Inv.of_blk ((search_frame i s).inv hs (searchTraverse_legalCursor ?_)) rfl
    obtain rfl | rfl := hi
    · exact legalCursor_initial
    · exact hs.cursor
  | bus r hn hu => exact Inv.of_blk (hu.frame.inv hs (hu.cursor ▸ hs.cursor)) rfl

theorem step_keeps_inv {s t : State} (hs : Inv s) (h : step s = .next t) : Inv t := by
  match hin : s.inputs with
  | [] =>
    cases (Encoding.step_of_idle hin).symm.trans h
    exact hs
  | .hardwareReset :: rest =>
    cases (Encoding.step_of_reset hin).symm.trans h
    exact inv_afterReset hs.channels rfl
  | .command w :: rest =>
    cases hw : decode w with
    | ok i => exact (effect_of_exec ((Encoding.step_of_decode hin hw).symm.trans h)).inv (hs.of_blk rfl)
    | error e =>
      have hfails : ¬ ∃ i, decode w = .ok i := fun ⟨i, hi⟩ => by cases hw.symm.trans hi
      cases (Encoding.step_of_decode_fails hin hfails).symm.trans h
      exact hs.of_blk rfl

end Sys2Proof.Machine

open Sys2Proof Sys2Proof.Machine

/-- Settles O14: the effect of each command keeps the legal states, and so do the reset event and an illegal word. -/
theorem stepKeepsLegalStates : Obligations.StepKeepsLegalStates := fun _ _ => step_keeps_inv

/-- Settles O13: the registers after reset, for the number of channels the block has. -/
theorem resetStateIsLegal : Obligations.ResetStateIsLegal := inv_afterReset nChannels_range rfl

/-- Settles O11: the legal state after reset, and the registers that reset clears. -/
theorem resetStateValues : Obligations.ResetStateValues := by
  have hinv := resetStateIsLegal
  refine ⟨rfl, hinv.channels, fun l hl => ?_, fun k _ => idByte_zeroIdent k, rfl, rfl, rfl, rfl, rfl, rfl, rfl⟩
  rw [hinv.released l hl]
  exact ⟨rfl, rfl⟩

/-- Settles O12: the event is taken from the port and the registers are those after reset. -/
theorem hardwareResetEvent : Obligations.HardwareResetEvent := fun _ _ hs =>
  ⟨_, Encoding.step_of_reset hs, rfl, rfl, rfl, rfl, rfl, rfl, rfl, rfl, rfl, rfl, rfl⟩

end

section
/-! PROOFS. The commands of the line and bit layers that are single uses of an operation (spec/40_line_and_delay.md R84
to R90, spec/41_bit_byte.md R100 to R107, spec/42_crc8.md R130): `INIT`, the line drivers and the sample filter, `OWRESET`,
`OWRBIT`, `OWRBYTE`, `CRCCHK`. -/

namespace Sys2Proof.Machine

theorem presentedTiming_listed {s : State} {tt : TimingTable Nat} {rest : List (TimingTable Nat)}
    (h : s.store = tt :: rest) : (presentedTiming s).1 = tt := by
  simp [presentedTiming, h]

/-! ### The line drivers (R84, R85) -/

theorem drives_driveLow {c : Byte} {s : State} (h : c.toNat < s.blk.lines.length) :
    drives (driveLow c s).blk c.toNat = some .low := by
  simp [drives, List.getElem?_eq_getElem h]

theorem drives_release (c : Byte) (t : State) : drives (release c t).blk c.toNat = none := by
  cases h : t.blk.lines[c.toNat]? <;> simp [drives, h]

theorem release_driveLow_blk (c : Byte) (s : State) :
    (release c (driveLow c s)).blk = { s.blk with lines := s.blk.lines.set c.toNat ⟨.inp, .low⟩ } := by
  rw [List.set_eq_modify]
  exact congrArg (fun l => { s.blk with lines := l }) (driver_after_slot s.blk.lines c.toNat)

/-! ### Responses that carry a filtered level -/

theorem resetResponse_not_majority (r : List Bool) :
    resetResponse (!majority r) = if 5 < r.count true then ⟨.noPresence, 0⟩ else ⟨.ok, 1⟩ := by
  by_cases h : 5 < r.count true <;> simp [resetResponse, majority, Config.sampleThreshold, h]

theorem bitToByte_majority (r : List Bool) : bitToByte (majority r) = if 5 < r.count true then 1 else 0 := by
  by_cases h : 5 < r.count true <;> simp [bitToByte, majority, Config.sampleThreshold, h]

theorem readEvents_length (b : Block) (r : List Bool) : (readEvents b r).length = 6 := rfl

/-- Eight read slots of 6 events each and the two events of the bracket (R107). -/
theorem readByteEvents_length (b : Block) (r : List Bool) : (readByteEvents b r).length = 50 := by
  simp [readByteEvents, List.length_flatMap, readEvents_length]

theorem readByte_getLsbD (s : State) {i : Nat} (h : i < 8) :
    (readByte s).1.getLsbD i = majority (slotSamples (rawBits 80 s.samples s.draws) i) := by
  rw [readByte_eq, byteOfBits_getLsbD _ (by simp) i h]
  simp [List.getD_eq_getElem?_getD, List.getElem?_range h]

end Sys2Proof.Machine

open Sys2Proof Sys2Proof.Machine

/-- Settles O18: the table presented is the one calibrated, and only `LT` and the store's position differ. -/
theorem initLoadsAllEightConstants : Obligations.InitLoadsAllEightConstants := by
  intro s
  refine ⟨(presentedTiming s).1, fun u rest h => presentedTiming_listed h, ?_⟩
  rw [exec_init, presentedTiming_state]
  rfl

/-- Settles O21: the driver of an existing line after each of the two operations. -/
theorem driveLowThenReleaseFreesTheLine : Obligations.DriveLowThenReleaseFreesTheLine := fun c s h =>
  ⟨drives_driveLow h, driveLow_trace c s, fun t => ⟨drives_release c t, release_trace c t⟩, release_driveLow_blk c s⟩

/-- Settles O22: with enough samples listed the raw samples are the list's first ten. -/
theorem sampleFiltersTenRawSamples : Obligations.SampleFiltersTenRawSamples := by
  intro c s h
  rw [sample_eq, rawBits_listed 10 _ _ h, afterSamples_listed 10 s h]
  rfl

/-- Settles O23: the command is the bus reset followed by the response. -/
theorem owresetReportsPresence : Obligations.OwresetReportsPresence := by
  intro s
  rw [exec_owreset, busReset_eq, resetResponse_not_majority]
  rfl

/-- Settles O25: the command is the read slot followed by the response. -/
theorem owrbitReadsOneSlot : Obligations.OwrbitReadsOneSlot := by
  intro s
  rw [exec_owrbit, readBit_eq, bitToByte_majority]
  rfl

/-- Settles O27: the command is the byte's bracketed read slots followed by the response. -/
theorem owrbyteReadsEightSlots : Obligations.OwrbyteReadsEightSlots := by
  intro s
  refine ⟨⟨(readByte s).1, fun i hi => readByte_getLsbD s hi, ?_⟩, readByteEvents_length s.blk _⟩
  rw [exec_owrbyte, readByte_eq]
  rfl

/-- Settles O30: the verdict is the response. -/
theorem crcchkGivesTheVerdict : Obligations.CrcchkGivesTheVerdict := fun v s => exec_crcchk v s

end

section
/-! PROOFS. Programs at the command port (spec/30_encoding.md R67): a presented program runs command by command; the
streamed validator (spec/42_crc8.md R128 to R130) and the identity round trip (spec/44_host_access.md R170, R171). -/

namespace Sys2Proof.Machine

/-! ### Running presented commands (R60) -/

/-- A run takes the presented commands one by one. -/
theorem run_succ_of_exec {i : Instr} {s t : State} {rest : List HostInput} (hwf : i.WellFormed)
    (hs : s.inputs = .command (encode i) :: rest) (ht : exec i { s with inputs := rest } = .next t) (n : Nat) :
    Host.Core.run Sys2Proof.core (n + 1) s = Host.Core.run Sys2Proof.core n t := by
  have hstep : Sys2Proof.core.step s = .next t := (Encoding.step_of_encode hwf hs).trans ht
  simp only [Host.Core.run, hstep]

/-! ### The streamed validator -/

/-- The payload folds into the validator, byte by byte. -/
theorem run_crcupd (payload : List Byte) (s : State) {rest : List HostInput}
    (hs : s.inputs = programInputs (payload.map .crcupd) ++ rest) (n : Nat) :
    ∃ (t : State) (rs : List Response),
      Host.Core.run Sys2Proof.core (payload.length + n) s = Host.Core.run Sys2Proof.core n t ∧
      t.blk = { s.blk with
        crcAcc := payload.foldl crc8Update s.blk.crcAcc
        nz := s.blk.nz || payload.any fun v => decide (v ≠ 0) } ∧
      t.responses = s.responses ++ rs ∧ t.inputs = rest ∧ t.trace = s.trace ∧ t.samples = s.samples := by
  induction payload generalizing s with
  | nil => exact ⟨s, [], by rw [List.length_nil, Nat.zero_add], by simp, by simp, hs, rfl, rfl⟩
  | cons v payload ih =>
    have hstep := run_succ_of_exec rfl hs (exec_crcupd v _) (payload.length + n)
    obtain ⟨t, rs, hrun, hblk, hresp, hrest⟩ := ih (respond ⟨.ok, crc8Update s.blk.crcAcc v⟩ { s with
      blk := { s.blk with crcAcc := crc8Update s.blk.crcAcc v, nz := nzAfter s.blk.nz v }
      inputs := programInputs (payload.map .crcupd) ++ rest }) rfl
    refine ⟨t, ⟨.ok, crc8Update s.blk.crcAcc v⟩ :: rs, ?_, ?_, ?_, hrest⟩
    · rw [List.length_cons, Nat.add_right_comm]
      exact hstep.trans hrun
    · rw [hblk]
      simp [nzAfter_eq, Bool.or_assoc]
    · rw [hresp, respond_responses, List.append_assoc, List.singleton_append]

theorem validate_iff_crcVerdict (payload : List Byte) (check : Byte) :
    crcVerdict (crc8 payload) (payload.any fun v => decide (v ≠ 0)) check = ⟨.ok, 1⟩ ↔
      validate (payload ++ [check]) = some true := by
  rw [validate_append_singleton, validatePayload_eq, crcVerdict]
  by_cases hcrc : crc8 payload = check
  · cases payload.any fun v => decide (v ≠ 0) <;> simp [hcrc]
  · simp [hcrc]

/-! ### The identity buffer, written and read byte by byte -/

theorem toNat_index {k : Nat} (h : k < 8) : (BitVec.ofNat 8 k).toNat = k := Nat.mod_eq_of_lt (by omega)

theorem index_le {k : Nat} (h : k < 8) : (BitVec.ofNat 8 k).toNat ≤ 7 := by
  rw [toNat_index h]
  omega

/-- `IDWR` of the bytes of `d` at some indices. -/
theorem run_idwr (d : Ident) (ks : List Nat) (hks : ∀ k ∈ ks, k < 8) (s : State) {rest : List HostInput}
    (hs : s.inputs = programInputs (ks.map fun k => .idwr (BitVec.ofNat 8 k) (idByte d k)) ++ rest) (n : Nat) :
    ∃ t : State, Host.Core.run Sys2Proof.core (ks.length + n) s = Host.Core.run Sys2Proof.core n t ∧
      t.blk = { s.blk with id := ks.foldl (fun id k => setIdByte id k (idByte d k)) s.blk.id } ∧
      t.responses = s.responses ++ List.replicate ks.length ⟨.ok, 0⟩ ∧ t.inputs = rest ∧ t.trace = s.trace := by
  induction ks generalizing s with
  | nil => exact ⟨s, by rw [List.length_nil, Nat.zero_add], rfl, by simp, hs, rfl⟩
  | cons k ks ih =>
    obtain ⟨hk, hks⟩ := List.forall_mem_cons.mp hks
    have hstep := run_succ_of_exec (i := .idwr (BitVec.ofNat 8 k) (idByte d k)) (decide_eq_true (index_le hk)) hs
      (exec_idwr (index_le hk) _ _) (ks.length + n)
    obtain ⟨t, hrun, hblk, hresp, hrest⟩ := ih hks (respond ⟨.ok, 0⟩ { s with
      blk := memWrite (BitVec.ofNat 8 k).toNat (idByte d k) s.blk
      inputs := programInputs (ks.map fun k => .idwr (BitVec.ofNat 8 k) (idByte d k)) ++ rest }) rfl
    refine ⟨t, ?_, ?_, ?_, hrest⟩
    · rw [List.length_cons, Nat.add_right_comm]
      exact hstep.trans hrun
    · rw [hblk, toNat_index hk]
      rfl
    · rw [hresp, respond_responses, List.append_assoc, List.singleton_append]
      rfl

/-- `IDRD` at some indices. -/
theorem run_idrd (ks : List Nat) (hks : ∀ k ∈ ks, k < 8) (s : State) {rest : List HostInput}
    (hs : s.inputs = programInputs (ks.map fun k => .idrd (BitVec.ofNat 8 k)) ++ rest) (n : Nat) :
    ∃ t : State, Host.Core.run Sys2Proof.core (ks.length + n) s = Host.Core.run Sys2Proof.core n t ∧ t.blk = s.blk ∧
      t.responses = s.responses ++ ks.map (fun k => ⟨.ok, memRead s.blk k⟩) ∧ t.trace = s.trace := by
  induction ks generalizing s with
  | nil => exact ⟨s, by rw [List.length_nil, Nat.zero_add], rfl, by simp, rfl⟩
  | cons k ks ih =>
    obtain ⟨hk, hks⟩ := List.forall_mem_cons.mp hks
    have hstep := run_succ_of_exec (i := .idrd (BitVec.ofNat 8 k)) (decide_eq_true (index_le hk)) hs
      (exec_idrd (index_le hk) _) (ks.length + n)
    obtain ⟨t, hrun, hblk, hresp, htrace⟩ := ih hks (respond ⟨.ok, memRead s.blk (BitVec.ofNat 8 k).toNat⟩ { s with
      inputs := programInputs (ks.map fun k => .idrd (BitVec.ofNat 8 k)) ++ rest }) rfl
    refine ⟨t, ?_, hblk, ?_, htrace⟩
    · rw [List.length_cons, Nat.add_right_comm]
      exact hstep.trans hrun
    · rw [hresp, respond_responses, List.append_assoc, List.singleton_append, toNat_index hk]
      rfl

theorem ident_ext {a b : Ident} (h : ∀ k < 8, idByte a k = idByte b k) : a = b := by
  apply Vector.ext
  intro k hk
  have := h k hk
  simpa [idByte, Vector.getElem?_eq_getElem hk] using this

/-- Writing the bytes of an identity at some indices leaves its bytes there and the old ones elsewhere. -/
theorem idByte_foldl_setIdByte (d : Ident) (ks : List Nat) (hks : ∀ k ∈ ks, k < 8) (id : Ident) (j : Nat) :
    idByte (ks.foldl (fun id k => setIdByte id k (idByte d k)) id) j =
      if j ∈ ks then idByte d j else idByte id j := by
  induction ks generalizing id with
  | nil => rfl
  | cons k ks ih =>
    obtain ⟨hk, hks⟩ := List.forall_mem_cons.mp hks
    rw [List.foldl_cons, ih hks, idByte_setIdByte id hk]
    by_cases hjks : j ∈ ks
    · simp [hjks]
    · by_cases hjk : j = k <;> simp [hjks, hjk]

/-- Writing all eight bytes replaces the identity. -/
theorem foldl_setIdByte_range (d id : Ident) :
    (List.range 8).foldl (fun id k => setIdByte id k (idByte d k)) id = d := by
  apply ident_ext
  intro k hk
  rw [idByte_foldl_setIdByte d _ (fun _ => List.mem_range.mp), if_pos (List.mem_range.mpr hk)]

theorem toList_eq_map_idByte (d : Ident) : d.toList = (List.range 8).map (idByte d) := by
  apply List.ext_getElem?
  intro k
  by_cases hk : k < 8
  · rw [toList_getElem? d hk, List.getElem?_map, List.getElem?_range hk]
    rfl
  · rw [List.getElem?_eq_none (by simpa using hk), List.getElem?_eq_none (by simpa using hk)]

theorem programInputs_append (p q : List Instr) : programInputs (p ++ q) = programInputs p ++ programInputs q :=
  List.map_append

end Sys2Proof.Machine

open Sys2Proof Sys2Proof.Machine

/-- Settles O31: the accumulator after the payload is its CRC, and `CRCCHK`'s verdict on it is `validate`. -/
theorem streamedValidatorIsValidate : Obligations.StreamedValidatorIsValidate := by
  intro payload check s rest hs
  have hinputs : s.inputs = .command (encode .crcinit) ::
      (programInputs (payload.map .crcupd) ++ .command (encode (.crcchk check)) :: rest) := by
    simp [hs, validateProgram, programInputs]
  have hinit := run_succ_of_exec rfl hinputs (exec_crcinit _) (payload.length + 1)
  obtain ⟨t, rs, hrun, hblk, hresp, hin, htrace, hsamples⟩ := run_crcupd payload (respond ⟨.ok, 0⟩ { s with
    blk := { s.blk with crcAcc := 0, nz := false }
    inputs := programInputs (payload.map .crcupd) ++ .command (encode (.crcchk check)) :: rest }) rfl 1
  have hchk := run_succ_of_exec rfl hin (exec_crcchk check _) 0
  refine ⟨_, ⟨.ok, 0⟩ :: rs, crcVerdict t.blk.crcAcc t.blk.nz check, (hinit.trans hrun).trans hchk, ?_, ?_,
    hblk, rfl, htrace, hsamples⟩
  · rw [respond_responses, hresp]
    simp
  · rw [hblk]
    exact validate_iff_crcVerdict payload check

/-- Settles O51: the eight writes replace the buffer, and the eight reads answer its bytes. -/
theorem setidThenGetidRoundTrip : Obligations.SetidThenGetidRoundTrip := by
  intro d s hs
  have hrange : ∀ k ∈ List.range 8, k < 8 := fun _ => List.mem_range.mp
  rw [programInputs_append] at hs
  obtain ⟨t, hwrite, hblk, hresp, hin, htrace⟩ := run_idwr d (List.range 8) hrange s hs 8
  obtain ⟨u, hread, hblk', hresp', htrace'⟩ := run_idrd (List.range 8) hrange t (rest := [])
    (hin.trans (List.append_nil _).symm) 0
  rw [foldl_setIdByte_range] at hblk
  refine ⟨u, hwrite.trans hread, hblk'.trans hblk, ?_, htrace'.trans htrace⟩
  rw [hresp', hresp, hblk, toList_eq_map_idByte, List.map_map]
  rfl

end

section
/-! PROOFS. The search commands around one traversal (spec/43_search.md R143, R150, R153): `SRCHFIRST` from the initial
cursor, no presence, and the cursor that `SRCHVERIFY` restores. -/

namespace Sys2Proof.Machine

/-! ### Traversals that go to the bus, and those that fail -/

theorem startState_ldf {i : Instr} {s : State}
    (hi : i = .srchfirst ∨ (i = .srchnext ∧ s.blk.ldf = false) ∨ i = .srchverify) :
    (startState i s).blk.ldf = false := by
  obtain rfl | ⟨rfl, hldf⟩ | rfl := hi
  · rfl
  · exact hldf
  · rfl

/-- A traversal that fails gives the command its cause; `SRCHVERIFY` then restores the cursor. -/
theorem exec_of_failed_search {i : Instr} {s u : State} {c : Status}
    (hi : i = .srchfirst ∨ i = .srchnext ∨ i = .srchverify) (h : searchTraverse (startState i s) = ((false, c), u)) :
    exec i s = .next (respond ⟨c, 0⟩ { u with
      blk := setSearchState (if i = .srchverify then searchState s.blk else searchState u.blk) u.blk }) := by
  obtain rfl | rfl | rfl := hi
  · rw [exec_search_eq (.inl rfl), h]
    rfl
  · rw [exec_search_eq (.inr rfl), h]
    rfl
  · rw [exec_srchverify_eq, h]
    rfl

/-! ### The traversal's answer -/

theorem searchTraverse_of_absent {s : State} (hldf : s.blk.ldf = false)
    (h : majority (rawBits 10 s.samples s.draws) = true) :
    searchTraverse s = ((false, .noPresence), resetSearch (busReset s).2) := by
  have habsent : (busReset s).1 = false := by rw [busReset_eq, h]; rfl
  obtain ⟨hset, -⟩ | ⟨-, -, e⟩ | ⟨-, hpresent, -⟩ := searchTraverse_cases s
  · exact absurd (hldf.symm.trans hset) nofun
  · exact e
  · exact absurd (habsent.symm.trans hpresent) nofun

/-- A device is reported with `OK` and only with it (R141). -/
theorem searchTraverse_found_iff (s : State) : (searchTraverse s).1.1 = true ↔ (searchTraverse s).1.2 = .ok := by
  obtain h | ⟨c, h, hc⟩ := searchTraverse_outcome s
  · simp [h]
  · rw [h]
    constructor
    · exact nofun
    · rintro rfl
      simp at hc

/-- `SRCHVERIFY`'s answer is the traversal's, with `OK` replaced when another identity was found. -/
theorem verifyResponse_eq {found : Bool} {cause : Status} (h : found = true ↔ cause = .ok) (a b : Ident) :
    verifyResponse found cause (a == b) =
      if (searchResponse found cause).status = .ok ∧ a ≠ b then ⟨.verifyMismatch, 0⟩
      else searchResponse found cause := by
  cases found with
  | false => simp_all [verifyResponse, searchResponse, bitToByte]
  | true =>
    obtain rfl := h.mp rfl
    by_cases hab : a = b <;> simp [verifyResponse, searchResponse, bitToByte, hab]

end Sys2Proof.Machine

open Sys2Proof Sys2Proof.Machine

/-- Settles O37: the initial cursor is what `SRCHFIRST` resets to before the same traversal. -/
theorem srchfirstIsSrchnextFromTheInitialCursor : Obligations.SrchfirstIsSrchnextFromTheInitialCursor := by
  intro s
  rw [exec_srchfirst, exec_srchnext]
  rfl

/-- Settles O38: the traversal ends after its bus reset, for each of the three cursors it starts with. -/
theorem noPresenceEndsTheSearch : Obligations.NoPresenceEndsTheSearch := by
  intro i s hi h
  have hhigh : majority (rawBits 10 s.samples s.draws) = true := decide_eq_true h
  have habsent := searchTraverse_of_absent (s := startState i s) (startState_ldf hi) hhigh
  rw [exec_of_failed_search (hi.imp_right (Or.imp_left And.left)) habsent, busReset_eq]
  split
  · rfl
  · rfl

/-- Settles O42: both commands make the traversal from the forced cursor, and `SRCHVERIFY` puts its own back. -/
theorem srchverifyRestoresTheCursor : Obligations.SrchverifyRestoresTheCursor := by
  intro s
  have hframe := searchTraverse_frame (forceReplay s)
  refine ⟨_, _, _, exec_srchverify s, exec_srchnext (forceReplay s), congrArg (· ++ _) hframe.responses, rfl, rfl, rfl,
    rfl, ?_⟩
  rw [respond_responses, verifyResponse_eq (searchTraverse_found_iff _)]
  exact congrArg (· ++ _) hframe.responses

end

section
/-! PROOFS. A search on noise-free listed levels (spec/43_search.md R145 to R149): the bits of an identity, the loop in
closed form position by position, and the searches that complete or abort. -/

namespace Sys2Proof.Machine

/-! ### The bits of an identity (20_memory.md R42) -/

theorem byteBit_setByteBit (v : Byte) {m j : Nat} (hm : m < 8) (hj : j < 8) (b : Bool) :
    byteBit (setByteBit v m b) j = if j = m then b else byteBit v j := by
  have hbit : (1#8 <<< m).getLsbD j = decide (j = m) := by
    interval_cases m <;> interval_cases j <;> rfl
  unfold byteBit setByteBit
  by_cases hjm : j = m
  · cases b
    · rw [if_neg nofun, BitVec.getLsbD_and, BitVec.getLsbD_not, hbit]
      simp [hjm]
    · rw [if_pos rfl, BitVec.getLsbD_or, hbit]
      simp [hjm]
  · cases b
    · rw [if_neg nofun, BitVec.getLsbD_and, BitVec.getLsbD_not, hbit]
      simp [hjm, hj]
    · rw [if_pos rfl, BitVec.getLsbD_or, hbit]
      simp [hjm]

/-- Two positions of an identity in one byte and at one bit of it are one position. -/
theorem position_inj {n m : Nat} (hn : 1 ≤ n) (hm : 1 ≤ m) :
    positionByte m = positionByte n ∧ positionBit m = positionBit n ↔ m = n := by
  unfold positionByte positionBit
  omega

theorem positionBit_lt (n : Nat) : positionBit n < 8 := Nat.mod_lt _ (by decide)

theorem idBit_setIdBit (id : Ident) {n m : Nat} (hn : 1 ≤ n) (hn' : n ≤ 64) (hm : 1 ≤ m) (b : Bool) :
    idBit (setIdBit id n b) m = if m = n then b else idBit id m := by
  have hpos := position_inj hn hm
  unfold idBit setIdBit
  rw [idByte_setIdByte id (positionByte_lt hn')]
  by_cases hbyte : positionByte m = positionByte n
  · rw [if_pos hbyte, byteBit_setByteBit _ (positionBit_lt n) (positionBit_lt m), hbyte]
    simp only [← hpos, hbyte, true_and]
  · rw [if_neg hbyte, if_neg fun h => hbyte (hpos.mpr h).1]

theorem idByte_identityOf (f : Nat → Bool) {k : Nat} (hk : k < 8) :
    idByte (identityOf f) k = byteOfBits ((List.range 8).map fun m => f (8 * k + m + 1)) := by
  rw [idByte, identityOf, Vector.getElem?_ofFn, dif_pos hk, Option.getD_some]

theorem idBit_identityOf (f : Nat → Bool) {n : Nat} (hn : 1 ≤ n) (hn' : n ≤ 64) : idBit (identityOf f) n = f n := by
  have hpos : 8 * positionByte n + positionBit n + 1 = n := by
    unfold positionByte positionBit
    omega
  have hbit := positionBit_lt n
  rw [idBit, byteBit, idByte_identityOf f (positionByte_lt hn'), byteOfBits_getLsbD _ (by simp) _ hbit]
  simp [List.getD_eq_getElem?_getD, List.getElem?_range hbit, hpos]

theorem idByte_eq_of_bits {a b : Ident} {k : Nat} (h : ∀ m < 8, idBit a (8 * k + m + 1) = idBit b (8 * k + m + 1)) :
    idByte a k = idByte b k := by
  apply BitVec.eq_of_getLsbD_eq
  intro m hm
  have hbit := h m hm
  unfold idBit positionByte positionBit at hbit
  rwa [show (8 * k + m + 1 - 1) / 8 = k by omega, show (8 * k + m + 1 - 1) % 8 = m by omega] at hbit

theorem ident_ext_bits {a b : Ident} (h : ∀ n, 1 ≤ n → n ≤ 64 → idBit a n = idBit b n) : a = b :=
  ident_ext fun k hk => idByte_eq_of_bits fun m hm => h (8 * k + m + 1) (by omega) (by omega)

/-! ### The last discrepancy answered with 0 (R145, R148) -/

theorem lastZeroUpTo_succ (m : Nat) (ld : Byte) (old : Ident) (pairs : List (Bool × Bool)) :
    lastZeroUpTo (m + 1) ld old pairs =
      if discrepancyAt pairs (m + 1) && !directionAt ld old pairs (m + 1) then m + 1
      else lastZeroUpTo m ld old pairs := by
  unfold lastZeroUpTo
  rw [List.range'_1_concat, List.filter_append, Nat.add_comm 1 m, List.filter_singleton]
  cases discrepancyAt pairs (m + 1) && !directionAt ld old pairs (m + 1) with
  | true => exact List.getLastD_concat ..
  | false => exact congrArg (List.getLastD · 0) (List.append_nil _)

theorem lastZeroUpTo_le (m : Nat) (ld : Byte) (old : Ident) (pairs : List (Bool × Bool)) :
    lastZeroUpTo m ld old pairs ≤ m := by
  induction m with
  | zero => exact Nat.le_refl 0
  | succ m ih =>
    rw [lastZeroUpTo_succ]
    split
    · exact Nat.le_refl _
    · exact Nat.le_succ_of_le ih

/-! ### The loop after `m` positions -/

/-- The identity after `m` positions: the directions taken there, the old bits after them. -/
def pathIdent (dir : Nat → Bool) (old : Ident) (m : Nat) : Ident :=
  identityOf fun n => if n ≤ m then dir n else idBit old n

theorem idBit_pathIdent (dir : Nat → Bool) (old : Ident) (m : Nat) {n : Nat} (hn : 1 ≤ n) (hn' : n ≤ 64) :
    idBit (pathIdent dir old m) n = if n ≤ m then dir n else idBit old n := idBit_identityOf _ hn hn'

theorem pathIdent_zero (dir : Nat → Bool) (old : Ident) : pathIdent dir old 0 = old :=
  ident_ext_bits fun n hn hn' => by rw [idBit_pathIdent dir old 0 hn hn', if_neg (by omega)]

theorem pathIdent_all (dir : Nat → Bool) (old : Ident) : pathIdent dir old 64 = identityOf dir :=
  ident_ext_bits fun n hn hn' => by
    rw [idBit_pathIdent dir old 64 hn hn', if_pos hn', idBit_identityOf dir hn hn']

theorem setIdBit_pathIdent (dir : Nat → Bool) (old : Ident) {m : Nat} (hm : m < 64) :
    setIdBit (pathIdent dir old m) (m + 1) (dir (m + 1)) = pathIdent dir old (m + 1) :=
  ident_ext_bits fun n hn hn' => by
    rw [idBit_setIdBit _ (Nat.le_add_left 1 m) hm hn, idBit_pathIdent dir old m hn hn',
      idBit_pathIdent dir old (m + 1) hn hn']
    by_cases h : n = m + 1
    · rw [if_pos h, if_pos (by omega), h]
    · simp only [if_neg h, show n ≤ m + 1 ↔ n ≤ m by omega]

/-- The cursor after `m` positions of these pairs, from the cursor `c`. -/
def listedCursor (c : SearchState) (pairs : List (Bool × Bool)) (m : Nat) : SearchState :=
  { c with
    lfd := if lastZeroUpTo (min m 8) c.ld c.id pairs = 0 then c.lfd
      else BitVec.ofNat 8 (lastZeroUpTo (min m 8) c.ld c.id pairs)
    id := pathIdent (directionAt c.ld c.id pairs) c.id m }

/-- The transient state after `m` positions. -/
def listedTraversal (c : SearchState) (pairs : List (Bool × Bool)) (m : Nat) : Traversal :=
  { n := m + 1
    lastZero := lastZeroUpTo m c.ld c.id pairs
    sCrc := crc8 ((listedCursor c pairs m).id.toList.take (m / 8))
    abort := false }

@[simp] theorem listedTraversal_n (c : SearchState) (pairs : List (Bool × Bool)) (m : Nat) :
    (listedTraversal c pairs m).n = m + 1 := rfl

@[simp] theorem listedCursor_ld (c : SearchState) (pairs : List (Bool × Bool)) (m : Nat) :
    (listedCursor c pairs m).ld = c.ld := rfl

/-- `LFD` follows the last zero as long as the position is in the family byte. -/
theorem listedCursor_lfd_succ (c : SearchState) (pairs : List (Bool × Bool)) (m : Nat) :
    (listedCursor c pairs (m + 1)).lfd =
      if discrepancyAt pairs (m + 1) && !directionAt c.ld c.id pairs (m + 1) && decide (m + 1 < 9) then
        BitVec.ofNat 8 (m + 1)
      else (listedCursor c pairs m).lfd := by
  unfold listedCursor
  by_cases hm : m < 8
  · rw [Nat.min_eq_left (by omega : m + 1 ≤ 8), Nat.min_eq_left (by omega : m ≤ 8), lastZeroUpTo_succ,
      decide_eq_true (by omega : m + 1 < 9), Bool.and_true]
    split
    · rw [if_neg (Nat.succ_ne_zero m)]
    · rfl
  · rw [Nat.min_eq_right (by omega : 8 ≤ m + 1), Nat.min_eq_right (by omega : 8 ≤ m),
      decide_eq_false (by omega : ¬ m + 1 < 9), Bool.and_false]
    rfl

theorem listedCursor_zero (c : SearchState) (pairs : List (Bool × Bool)) : listedCursor c pairs 0 = c := by
  simp [listedCursor, pathIdent_zero, lastZeroUpTo]

theorem listed_replays (c : SearchState) (pairs : List (Bool × Bool)) {m : Nat} (hm : m ≤ 64) :
    Replays (listedTraversal c pairs m) (listedCursor c pairs m) :=
  ⟨Nat.le_add_left 1 m, Nat.succ_le_succ hm, Nat.lt_succ_of_le (lastZeroUpTo_le ..), rfl⟩

/-- The direction of the next position, from the identity that the positions before it have already replaced. -/
theorem searchDirection_listed (c : SearchState) {pairs : List (Bool × Bool)} {m : Nat} (hm : m < 64)
    (hp : pairAt pairs (m + 1) ≠ (true, true)) :
    searchDirection c.ld (listedCursor c pairs m).id (m + 1) (pairAt pairs (m + 1)).1 (pairAt pairs (m + 1)).2 =
      directionAt c.ld c.id pairs (m + 1) := by
  have hold : idBit (listedCursor c pairs m).id (m + 1) = idBit c.id (m + 1) := by
    rw [listedCursor, idBit_pathIdent _ _ _ (Nat.le_add_left 1 m) hm, if_neg (by omega)]
  unfold searchDirection directionAt discrepancyAt
  rw [hold]
  generalize pairAt pairs (m + 1) = p at hp
  match p, hp with
  | (false, false), _ => rfl
  | (false, true), _ => rfl
  | (true, false), _ => rfl

theorem takesZero_listed {pairs : List (Bool × Bool)} {n : Nat} (dir : Bool) :
    takesZero (pairAt pairs n).1 (pairAt pairs n).2 dir = (discrepancyAt pairs n && !dir) := rfl

/-- Recording the pair of the next position leads from one closed form to the next. -/
theorem recordPair_listed (c : SearchState) {pairs : List (Bool × Bool)} {m : Nat} (hm : m < 64)
    (hp : pairAt pairs (m + 1) ≠ (true, true)) :
    recordPair (pairAt pairs (m + 1)).1 (pairAt pairs (m + 1)).2 (listedTraversal c pairs m) (listedCursor c pairs m) =
      (listedTraversal c pairs (m + 1), listedCursor c pairs (m + 1)) := by
  have hcrc := (recordPair_replays (listed_replays c pairs (Nat.le_of_lt hm)) (Nat.succ_le_of_lt hm)
    (pairAt pairs (m + 1)).1 (pairAt pairs (m + 1)).2).crc
  have hlfd := listedCursor_lfd_succ c pairs m
  have hid : setIdBit (listedCursor c pairs m).id (m + 1) (directionAt c.ld c.id pairs (m + 1)) =
      (listedCursor c pairs (m + 1)).id := setIdBit_pathIdent _ c.id hm
  have hzero := lastZeroUpTo_succ m c.ld c.id pairs
  unfold recordPair at hcrc ⊢
  simp only [listedTraversal_n, listedCursor_ld, searchDirection_listed c hm hp, takesZero_listed] at hcrc ⊢
  rw [hcrc, hid]
  exact Prod.ext (congrArg (Traversal.mk (m + 1 + 1) · _ false) hzero.symm)
    (congrArg (SearchState.mk c.ld · c.ldf _) hlfd.symm)

/-! ### Noise-free listed samples (95_test_vectors.md, section 0) -/

theorem majority_steady (level : Bool) : majority (steady level) = level := by
  cases level <;> decide

theorem firstSamples_of_listed {s : State} {level : Bool} {l : List Bool} (hs : s.samples = steady level ++ l) :
    firstSamples s = steady level ∧ afterSamples 10 s = { s with samples := l } := by
  have hlen : 10 ≤ s.samples.length := by simp [hs, steady]
  rw [firstSamples, rawBits_listed 10 _ _ hlen, afterSamples_listed 10 s hlen, hs]
  exact ⟨List.take_left' List.length_replicate,
    congrArg (fun l => { s with samples := l }) (List.drop_left' List.length_replicate)⟩

/-- The raw samples of the two read slots of each position. -/
def pairSamples (pairs : List (Bool × Bool)) : List Bool := noiseFree (pairs.flatMap fun p => [p.1, p.2])

theorem noiseFree_pairLevels (pairs : List (Bool × Bool)) :
    noiseFree (pairLevels pairs) = steady false ++ pairSamples pairs := rfl

theorem pairSamples_cons (p : Bool × Bool) (pairs : List (Bool × Bool)) :
    pairSamples (p :: pairs) = steady p.1 ++ (steady p.2 ++ pairSamples pairs) := by
  simp [pairSamples, noiseFree, steady, Config.nSamples]

theorem pairSamples_append (pairs pairs' : List (Bool × Bool)) :
    pairSamples (pairs ++ pairs') = pairSamples pairs ++ pairSamples pairs' := by
  simp [pairSamples, noiseFree]

/-- The two read slots of a position whose levels are listed. -/
theorem pair_of_listed {s : State} {p : Bool × Bool} {l : List Bool}
    (hs : s.samples = steady p.1 ++ (steady p.2 ++ l)) :
    majority (firstSamples s) = p.1 ∧ majority (secondSamples s) = p.2 ∧ afterSamples 20 s = { s with samples := l } ∧
      pairEvents s = readEvents s.blk (steady p.1) ++ readEvents s.blk (steady p.2) := by
  obtain ⟨hfirst, hafter⟩ := firstSamples_of_listed hs
  have hs' : (afterSamples 10 s).samples = steady p.2 ++ l := by rw [hafter]
  obtain ⟨hsecond, hafter'⟩ := firstSamples_of_listed hs'
  have hboth : afterSamples 20 s = { s with samples := l } := by
    rw [← afterSamples_add 10 10 s, hafter', hafter]
  rw [pairEvents, secondSamples, hfirst, hsecond, majority_steady, majority_steady]
  exact ⟨rfl, rfl, hboth, rfl⟩

/-! ### The loop in closed form -/

/-- The events of the positions up to `m` (R141). -/
def positionEvents (b : Block) (pairs : List (Bool × Bool)) (dir : Nat → Bool) (m : Nat) : List LineEvent :=
  (List.range' 1 m).flatMap fun n =>
    readEvents b (steady (pairAt pairs n).1) ++ readEvents b (steady (pairAt pairs n).2) ++ writeEvents b (dir n)

theorem positionEvents_succ (b : Block) (pairs : List (Bool × Bool)) (dir : Nat → Bool) (m : Nat) :
    positionEvents b pairs dir (m + 1) = positionEvents b pairs dir m ++
      (readEvents b (steady (pairAt pairs (m + 1)).1) ++ readEvents b (steady (pairAt pairs (m + 1)).2) ++
        writeEvents b (dir (m + 1))) := by
  simp [positionEvents, List.range'_1_concat, Nat.add_comm 1 m]

/-- The state after `m` positions of a loop that began in `s`. -/
def listedState (s : State) (pairs : List (Bool × Bool)) (rest : List Bool) (m : Nat) : State :=
  { s with
    blk := setSearchState (listedCursor (searchState s.blk) pairs m) s.blk
    samples := pairSamples (pairs.drop m) ++ rest
    trace := s.trace ++ positionEvents s.blk pairs (directionAt s.blk.ld s.blk.id pairs) m }

theorem searchLoop_add {s s' : State} {t t' : Traversal} {m : Nat} (h : searchLoop m t s = (t', s'))
    (hgo : t'.abort = false) (k : Nat) : searchLoop (m + k) t s = searchLoop k t' s' := by
  induction m generalizing t s with
  | zero =>
    cases h
    rw [Nat.zero_add]
  | succ m ih =>
    rw [Nat.add_right_comm]
    simp only [searchLoop] at h ⊢
    split at h
    next hab =>
      cases h
      exact absurd (hgo.symm.trans hab) nofun
    next hab => rw [if_neg hab, ih h]

theorem pairAt_succ {pairs : List (Bool × Bool)} {m : Nat} (hm : m < pairs.length) :
    pairAt pairs (m + 1) = pairs[m] := by
  simp [pairAt, hm]

theorem and_eq_false_of_ne_ones {p : Bool × Bool} (h : p ≠ (true, true)) : (p.1 && p.2) = false := by
  revert p; decide

/-- One position of the loop, between two closed forms. -/
theorem searchPosition_listed {s : State} {pairs : List (Bool × Bool)} {rest : List Bool} {m : Nat}
    (hrel : afterSlot s.blk = s.blk) (hones : (true, true) ∉ pairs) (hm : m < pairs.length) (hm64 : m < 64) :
    searchPosition (listedTraversal (searchState s.blk) pairs m) (listedState s pairs rest m) =
      (listedTraversal (searchState s.blk) pairs (m + 1), listedState s pairs rest (m + 1)) := by
  have hp : pairAt pairs (m + 1) ≠ (true, true) := by
    rw [pairAt_succ hm]
    exact fun h => hones (h ▸ List.getElem_mem hm)
  have hs : (listedState s pairs rest m).samples = steady (pairAt pairs (m + 1)).1 ++
      (steady (pairAt pairs (m + 1)).2 ++ (pairSamples (pairs.drop (m + 1)) ++ rest)) := by
    show pairSamples (pairs.drop m) ++ rest = _
    rw [List.drop_eq_getElem_cons hm, pairSamples_cons, pairAt_succ hm]
    simp
  obtain ⟨h1, h2, hafter, hevents⟩ := pair_of_listed hs
  have hblk : setSearchState (listedCursor (searchState s.blk) pairs (m + 1))
      (afterSlot (listedState s pairs rest m).blk) =
      setSearchState (listedCursor (searchState s.blk) pairs (m + 1)) s.blk := by
    rw [listedState, afterSlot_setSearchState, hrel, setSearchState_twice]
  have hcursor : searchState (listedState s pairs rest m).blk = listedCursor (searchState s.blk) pairs m := rfl
  have hdir : searchDirection (listedState s pairs rest m).blk.ld (listedState s pairs rest m).blk.id
      (listedTraversal (searchState s.blk) pairs m).n (pairAt pairs (m + 1)).1 (pairAt pairs (m + 1)).2 =
      directionAt s.blk.ld s.blk.id pairs (m + 1) := searchDirection_listed (searchState s.blk) hm64 hp
  rw [searchPosition_of_pair h1 h2 (and_eq_false_of_ne_ones hp), hafter, hevents, hcursor, hdir,
    recordPair_listed (searchState s.blk) hm64 hp, hblk]
  simp only [listedState, positionEvents_succ, List.append_assoc]
  rfl

/-- The loop over listed pairs none of which is 1,1. -/
theorem searchLoop_listed {s : State} {pairs : List (Bool × Bool)} {rest : List Bool} (hrel : afterSlot s.blk = s.blk)
    (hones : (true, true) ∉ pairs) (hs : s.samples = pairSamples pairs ++ rest) (m : Nat) (hm : m ≤ pairs.length)
    (hm64 : m ≤ 64) :
    searchLoop m traversalStart s = (listedTraversal (searchState s.blk) pairs m, listedState s pairs rest m) := by
  induction m with
  | zero =>
    have hstart : listedState s pairs rest 0 = s := by
      rw [listedState, listedCursor_zero, setSearchState_searchState, List.drop_zero, ← hs]
      simp [positionEvents]
    rw [hstart]
    rfl
  | succ m ih =>
    rw [searchLoop_add (ih (by omega) (by omega)) rfl 1]
    simp only [searchLoop, searchPosition_listed hrel hones (Nat.lt_of_succ_le hm) (Nat.lt_of_succ_le hm64)]
    rfl

/-! ### The traversal on listed levels -/

/-- The state in which the loop begins, after the bus reset and the command byte (R141, lines 4 to 8). -/
def loopStart (s : State) (l : List Bool) : State :=
  { s with
    blk := { afterSlot s.blk with crit := false }
    samples := l
    trace := s.trace ++ (resetEvents s.blk (steady false) ++ writeByteEvents s.blk 0xF0) }

theorem searchTraverse_of_present {s : State} {l : List Bool} (hldf : s.blk.ldf = false)
    (hs : s.samples = steady false ++ l) :
    searchTraverse s = searchVerdict (searchLoop 64 traversalStart (loopStart s l)).1
      (searchLoop 64 traversalStart (loopStart s l)).2 := by
  obtain ⟨hfirst, hafter⟩ := firstSamples_of_listed hs
  have hreset : busReset s = (true, { s with
      blk := afterSlot s.blk, samples := l, trace := s.trace ++ resetEvents s.blk (steady false) }) := by
    rw [busReset_eq, hafter, show rawBits 10 s.samples s.draws = steady false from hfirst, majority_steady]
    rfl
  obtain ⟨hset, -⟩ | ⟨-, habsent, -⟩ | ⟨-, -, t, u, hloop, e⟩ := searchTraverse_cases s
  · exact absurd (hldf.symm.trans hset) nofun
  · rw [hreset] at habsent
    exact absurd habsent nofun
  · have hstart : writeByte Config.cmdSearchRom (busReset s).2 = loopStart s l := by
      rw [hreset, writeByte_eq]
      simp only [afterSlot_twice, List.append_assoc]
      rfl
    rw [hstart] at hloop
    rw [e, hloop]

theorem listedState_loopStart (s : State) (pairs : List (Bool × Bool)) (l rest : List Bool) (m : Nat) :
    listedState (loopStart s l) pairs rest m = { s with
      blk := afterSearch (listedCursor (searchState s.blk) pairs m) s.blk
      samples := pairSamples (pairs.drop m) ++ rest
      trace := s.trace ++ searchEvents s.blk pairs (directionAt s.blk.ld s.blk.id pairs) m } := by
  simp only [listedState, loopStart, searchEvents, List.append_assoc]
  rfl

/-- The loop of a search on listed pairs, `m` positions on. -/
theorem searchLoop_loopStart {s : State} {pairs : List (Bool × Bool)} {rest : List Bool} (hones : (true, true) ∉ pairs)
    {m : Nat} (hm : m ≤ pairs.length) (hm64 : m ≤ 64) :
    searchLoop m traversalStart (loopStart s (pairSamples pairs ++ rest)) =
      (listedTraversal (searchState s.blk) pairs m, { s with
        blk := afterSearch (listedCursor (searchState s.blk) pairs m) s.blk
        samples := pairSamples (pairs.drop m) ++ rest
        trace := s.trace ++ searchEvents s.blk pairs (directionAt s.blk.ld s.blk.id pairs) m }) := by
  have hrel : afterSlot { afterSlot s.blk with crit := false } = { afterSlot s.blk with crit := false } :=
    congrArg (fun b => { b with crit := false }) (afterSlot_twice s.blk)
  rw [searchLoop_listed hrel hones rfl m hm hm64, listedState_loopStart]
  rfl

/-- The identity after 64 positions, and its CRC. -/
theorem listed_complete (c : SearchState) (pairs : List (Bool × Bool)) :
    (listedCursor c pairs 64).id = identityOf (directionAt c.ld c.id pairs) ∧
      (listedTraversal c pairs 64).sCrc = crc8 (identityOf (directionAt c.ld c.id pairs)).toList := by
  have hid : (listedCursor c pairs 64).id = identityOf (directionAt c.ld c.id pairs) := pathIdent_all _ _
  refine ⟨hid, ?_⟩
  rw [listedTraversal, hid, List.take_of_length_le (by simp)]

theorem advanceCursor_afterSearch (z : Nat) {c : SearchState} (hldf : c.ldf = false) (b : Block) :
    advanceCursor z (afterSearch c b) =
      afterSearch { c with ld := BitVec.ofNat 8 z, ldf := decide (z = 0) } b := by
  have hflag : (if z = 0 then true else c.ldf) = decide (z = 0) := by
    rw [hldf, Bool.if_true_left, Bool.or_false]
  exact congrArg (fun f => afterSearch { c with ld := BitVec.ofNat 8 z, ldf := f } b) hflag

/-- A search whose 64 positions complete (R148, R149). -/
theorem searchTraverse_completed {s : State} {pairs : List (Bool × Bool)} {rest : List Bool}
    (hldf : s.blk.ldf = false) (hlen : pairs.length = 64) (hones : (true, true) ∉ pairs)
    (hs : s.samples = noiseFree (pairLevels pairs) ++ rest) :
    searchTraverse s =
      ((decide ((completedSearch (searchState s.blk) pairs).2 = .ok), (completedSearch (searchState s.blk) pairs).2),
        { s with
          blk := afterSearch (completedSearch (searchState s.blk) pairs).1 s.blk
          samples := rest
          trace := s.trace ++ searchEvents s.blk pairs (directionAt s.blk.ld s.blk.id pairs) 64 }) := by
  obtain ⟨hid, hsum⟩ := listed_complete (searchState s.blk) pairs
  rw [noiseFree_pairLevels, List.append_assoc] at hs
  rw [searchTraverse_of_present hldf hs, searchLoop_loopStart hones (by omega) (Nat.le_refl 64),
    List.drop_eq_nil_of_le (by omega)]
  dsimp only
  generalize hnew : identityOf (directionAt (searchState s.blk).ld (searchState s.blk).id pairs) = new at hid hsum
  obtain ⟨hab, -⟩ | ⟨-, hcrc, e⟩ | ⟨-, hcrc, hzero, e⟩ | ⟨-, hcrc, hnonzero, e⟩ := searchVerdict_cases
    (listedTraversal (searchState s.blk) pairs 64)
    { s with
      blk := afterSearch (listedCursor (searchState s.blk) pairs 64) s.blk
      samples := pairSamples [] ++ rest
      trace := s.trace ++ searchEvents s.blk pairs (directionAt s.blk.ld s.blk.id pairs) 64 }
  · cases hab
  · have hresult : completedSearch (searchState s.blk) pairs = (initialSearch, .crcMismatch) := by
      simp only [completedSearch, hnew]
      rw [if_pos (hsum ▸ hcrc)]
    rw [e, hresult]
    rfl
  · have hresult : completedSearch (searchState s.blk) pairs = (initialSearch, .zeroPayload) := by
      simp only [completedSearch, hnew]
      rw [if_neg (not_not.mpr (hsum ▸ hcrc)), if_pos (hid ▸ hzero)]
    rw [e, hresult]
    rfl
  · have hresult : completedSearch (searchState s.blk) pairs = ({ listedCursor (searchState s.blk) pairs 64 with
        ld := BitVec.ofNat 8 (lastZeroUpTo 64 (searchState s.blk).ld (searchState s.blk).id pairs)
        ldf := decide (lastZeroUpTo 64 (searchState s.blk).ld (searchState s.blk).id pairs = 0) }, .ok) := by
      simp only [completedSearch, hnew]
      rw [if_neg (not_not.mpr (hsum ▸ hcrc)), if_neg (hid ▸ hnonzero), ← hid]
      rfl
    rw [e, hresult, advanceCursor_afterSearch _ hldf]
    rfl

theorem afterSlot_afterSearch (c : SearchState) (b : Block) : afterSlot (afterSearch c b) = afterSearch c b :=
  congrArg (fun x : Block => setSearchState c { x with crit := false }) (afterSlot_twice b)

theorem searchVerdict_of_abort {t : Traversal} (h : t.abort = true) (s : State) :
    searchVerdict t s = ((false, .noResponse), resetSearch s) := if_pos h

/-- The events up to a pair 1,1 at the next position (R149). -/
def abortEvents (b : Block) (pairs : List (Bool × Bool)) (dir : Nat → Bool) : List LineEvent :=
  searchEvents b pairs dir pairs.length ++ readEvents b (steady true) ++ readEvents b (steady true)

theorem slotCount_searchEvents (b : Block) (pairs : List (Bool × Bool)) (dir : Nat → Bool) (m : Nat) :
    slotCount (searchEvents b pairs dir m) = 1 + 8 + 3 * m := by
  have hposition : ∀ n, slotCount (readEvents b (steady (pairAt pairs n).1) ++
      readEvents b (steady (pairAt pairs n).2) ++ writeEvents b (dir n)) = 3 := fun n => by simp
  rw [searchEvents, slotCount_append, slotCount_append, slotCount_flatMap hposition, slotCount_resetEvents,
    slotCount_writeByteEvents, List.length_range', Nat.mul_comm]

/-- A search that meets a pair 1,1 after these pairs (R149). -/
theorem searchTraverse_aborted {s : State} {pairs : List (Bool × Bool)} {rest : List Bool}
    (hldf : s.blk.ldf = false) (hlen : pairs.length < 64) (hones : (true, true) ∉ pairs)
    (hs : s.samples = noiseFree (pairLevels (pairs ++ [(true, true)])) ++ rest) :
    searchTraverse s = ((false, .noResponse), { s with
      blk := afterSearch initialSearch s.blk
      samples := rest
      trace := s.trace ++ abortEvents s.blk pairs (directionAt s.blk.ld s.blk.id pairs) }) := by
  rw [noiseFree_pairLevels, pairSamples_append, List.append_assoc, List.append_assoc] at hs
  have hloop := searchLoop_loopStart (s := s) (rest := pairSamples [(true, true)] ++ rest) hones
    (Nat.le_refl pairs.length) hlen.le
  rw [List.drop_length] at hloop
  obtain ⟨h1, h2, hafter, hevents⟩ := pair_of_listed (p := (true, true)) (l := rest) (s := { s with
    blk := afterSearch (listedCursor (searchState s.blk) pairs pairs.length) s.blk
    samples := pairSamples [] ++ (pairSamples [(true, true)] ++ rest)
    trace := s.trace ++ searchEvents s.blk pairs (directionAt s.blk.ld s.blk.id pairs) pairs.length }) rfl
  rw [searchTraverse_of_present hldf hs, show 64 = pairs.length + (63 - pairs.length + 1) by omega,
    searchLoop_add hloop rfl]
  simp only [searchLoop, searchPosition_of_ones h1 h2, hafter, hevents, if_true]
  rw [searchVerdict_of_abort rfl, afterSlot_afterSearch]
  simp only [abortEvents, List.append_assoc]
  rfl

/-! ### The answers of completed searches (R150, R153) -/

theorem searchResponse_decide (c : Status) :
    searchResponse (decide (c = .ok)) c = ⟨c, if c = .ok then 1 else 0⟩ := by
  by_cases h : c = .ok <;> simp [searchResponse, bitToByte, h]

theorem verifyResponse_decide (c : Status) (a b : Ident) :
    verifyResponse (decide (c = .ok)) c (a == b) =
      if c ≠ .ok then ⟨c, 0⟩ else if a = b then ⟨.ok, 1⟩ else ⟨.verifyMismatch, 0⟩ := by
  by_cases h : c = .ok <;> by_cases hab : a = b <;> simp [verifyResponse, h, hab]

end Sys2Proof.Machine
open Sys2Proof Sys2Proof.Machine

/-- Settles O39: the loop's closed form after 64 positions, and the verdict on it. -/
theorem completedSearchFollowsThePairs : Obligations.CompletedSearchFollowsThePairs := by
  intro i s pairs rest hi hlen hones hs start result
  have hldf := startState_ldf (hi.imp_right Or.inl)
  have hcompleted := searchTraverse_completed (s := startState i s) hldf hlen hones hs
  rw [exec_search_eq (hi.imp_right And.left), hcompleted, searchResponse_decide]
  obtain rfl | ⟨rfl, -⟩ := hi
  · rfl
  · rfl

/-- Settles O40: the same traversal from the forced cursor, with the cursor restored after it. -/
theorem completedVerifyKeepsTheCursor : Obligations.CompletedVerifyKeepsTheCursor := by
  intro s pairs rest hlen hones hs start result
  have hcompleted := searchTraverse_completed (s := startState .srchverify s) rfl hlen hones hs
  rw [exec_srchverify_eq, hcompleted, verifyResponse_decide]
  rfl

/-- Settles O41: the loop's closed form up to the pair 1,1, which ends it before the position's write slot. -/
theorem abortedSearchReportsNoResponse : Obligations.AbortedSearchReportsNoResponse := by
  intro i s pairs rest hi hlen hones hs start es
  have haborted := searchTraverse_aborted (s := startState i s) (startState_ldf hi) hlen hones hs
  refine ⟨?_, ?_⟩
  · rw [exec_of_failed_search (hi.imp_right (Or.imp_left And.left)) haborted]
    split
    · rfl
    · rfl
  · simp [es, slotCount_searchEvents]

end

section
/-! PROOFS. Searches on a line of devices (spec/43_search.md R140, R150, R153, R154): the identities in position order,
the wired AND along a device's path, and the enumeration. -/

namespace Sys2Proof.Machine

/-! ### Position order (R150) -/

/-- The first position at which the two identities differ is `n`, and `a` has the 0 there. -/
def DivergesAt (a b : Ident) (n : Nat) : Prop :=
  1 ≤ n ∧ n ≤ 64 ∧ (∀ m, m < n → 1 ≤ m → idBit a m = idBit b m) ∧ idBit a n = false ∧ idBit b n = true

theorem precedes_iff (a b : Ident) : precedes a b ↔ ∃ n, DivergesAt a b n := Iff.rfl

/-- Of three identities `a`, `b`, `c` with `a` before `b` before `c`, the first difference of `a` and `c` is the earlier
of the other two. -/
theorem DivergesAt.trans {a b c : Ident} {m n : Nat} (h : DivergesAt a b m) (k : DivergesAt b c n) :
    DivergesAt a c (min m n) := by
  obtain ⟨hm1, hm64, hbefore, ham, hbm⟩ := h
  obtain ⟨hn1, hn64, hbefore', hbn, hcn⟩ := k
  refine ⟨by omega, by omega, fun j hj hj1 => (hbefore j (by omega) hj1).trans (hbefore' j (by omega) hj1), ?_⟩
  obtain hlt | rfl | hgt := Nat.lt_trichotomy m n
  · rw [Nat.min_eq_left hlt.le]
    exact ⟨ham, (hbefore' m hlt hm1).symm.trans hbm⟩
  · exact absurd (hbm.symm.trans hbn) nofun
  · rw [Nat.min_eq_right hgt.le]
    exact ⟨(hbefore n hgt hn1).trans hbn, hcn⟩

theorem DivergesAt.unique {a b : Ident} {m n : Nat} (h : DivergesAt a b m) (k : DivergesAt a b n) : m = n := by
  obtain ⟨hm1, -, hbefore, ham, hbm⟩ := h
  obtain ⟨hn1, -, hbefore', han, hbn⟩ := k
  obtain hlt | heq | hgt := Nat.lt_trichotomy m n
  · exact absurd (ham.symm.trans ((hbefore' m hlt hm1).trans hbm)) nofun
  · exact heq
  · exact absurd (han.symm.trans ((hbefore n hgt hn1).trans hbn)) nofun

theorem precedes_irrefl (a : Ident) : ¬ precedes a a := fun ⟨_, _, _, _, h0, h1⟩ => absurd (h0.symm.trans h1) nofun

theorem precedes_trans {a b c : Ident} (h : precedes a b) (k : precedes b c) : precedes a c := by
  obtain ⟨m, hm⟩ := (precedes_iff a b).mp h
  obtain ⟨n, hn⟩ := (precedes_iff b c).mp k
  exact ⟨min m n, hm.trans hn⟩

theorem precedes_asymm {a b : Ident} (h : precedes a b) : ¬ precedes b a := fun k =>
  precedes_irrefl a (precedes_trans h k)

theorem contends_iff (path d : Ident) (n : Nat) :
    contends path n d = true ↔ ∀ m, 1 ≤ m → m < n → idBit d m = idBit path m := by
  simp only [contends, List.all_eq_true, List.mem_range'_1, beq_iff_eq]
  constructor
  · exact fun h m hm hm' => h m ⟨hm, by omega⟩
  · exact fun h m hm => h m hm.1 (by omega)

theorem contends_self (d : Ident) (n : Nat) : contends d n d = true := (contends_iff d d n).mpr fun _ _ _ => rfl

/-- A contender that answers 0 does not come after a path that goes to 1. -/
theorem idBit_eq_false_of_contends {d e : Ident} {n : Nat} (hn : 1 ≤ n) (hc : contends d n e = true)
    (he : idBit e n = false) (h : e = d ∨ precedes d e) : idBit d n = false := by
  obtain rfl | ⟨k, hk1, -, hbefore, hdk, hek⟩ := h
  · exact he
  obtain hlt | rfl | hgt := Nat.lt_trichotomy k n
  · have := (contends_iff d e n).mp hc k hk1 hlt
    exact absurd (hek.symm.trans (this.trans hdk)) nofun
  · exact hdk
  · exact (hbefore n hgt hn).trans he

/-! ### The wired AND along a device's path (R140) -/

/-- The pairs that a search along the path of `d` reads. -/
def linePairs (devices : List Ident) (d : Ident) : List (Bool × Bool) := (List.range' 1 64).map (wiredPair devices d)

theorem searchLevels_eq {devices : List Ident} {d : Ident} (hd : d ∈ devices) :
    searchLevels devices d = pairLevels (linePairs devices d) := by
  have hsome : devices.isEmpty = false := by
    rw [List.isEmpty_eq_false_iff]
    exact List.ne_nil_of_mem hd
  rw [searchLevels, hsome, pairLevels, linePairs, List.flatMap_map]

theorem linePairs_length (devices : List Ident) (d : Ident) : (linePairs devices d).length = 64 := by
  simp [linePairs]

theorem pairAt_linePairs (devices : List Ident) (d : Ident) {n : Nat} (hn : 1 ≤ n) (hn' : n ≤ 64) :
    pairAt (linePairs devices d) n = wiredPair devices d n := by
  have hlt : n - 1 < (linePairs devices d).length := by
    rw [linePairs_length]
    omega
  rw [pairAt, List.getD_eq_getElem?_getD, List.getElem?_eq_getElem hlt, Option.getD_some]
  simp only [linePairs, List.getElem_map, List.getElem_range']
  congr 1
  omega

theorem wiredPair_fst (devices : List Ident) (d : Ident) (n : Nat) :
    (wiredPair devices d n).1 = true ↔ ∀ e ∈ devices, contends d n e = true → idBit e n = true := by
  simp only [wiredPair, List.all_eq_true, List.mem_filter, and_imp]

theorem wiredPair_snd (devices : List Ident) (d : Ident) (n : Nat) :
    (wiredPair devices d n).2 = true ↔ ∀ e ∈ devices, contends d n e = true → idBit e n = false := by
  simp only [wiredPair, List.all_eq_true, List.mem_filter, and_imp, Bool.not_eq_true']

/-- A device on its own path answers one of the two read slots with 0. -/
theorem wiredPair_ne_ones {devices : List Ident} {d : Ident} (hd : d ∈ devices) (n : Nat) :
    wiredPair devices d n ≠ (true, true) := by
  intro h
  have h1 := (wiredPair_fst devices d n).mp (congrArg Prod.fst h) d hd (contends_self d n)
  have h2 := (wiredPair_snd devices d n).mp (congrArg Prod.snd h) d hd (contends_self d n)
  exact absurd (h1.symm.trans h2) nofun

theorem ones_not_mem_linePairs {devices : List Ident} {d : Ident} (hd : d ∈ devices) :
    (true, true) ∉ linePairs devices d := by
  intro h
  obtain ⟨n, -, hn⟩ := List.mem_map.mp h
  exact wiredPair_ne_ones hd n hn

/-- At a position of a device's path the line shows the device's bit, or some contender differs and it is a
discrepancy. -/
theorem wiredPair_cases {devices : List Ident} {d : Ident} (hd : d ∈ devices) (n : Nat) :
    ((wiredPair devices d n).1 = idBit d n ∧ (wiredPair devices d n).2 = !idBit d n ∧
      ∀ e ∈ devices, contends d n e = true → idBit e n = idBit d n) ∨
    ((wiredPair devices d n).1 = false ∧ (wiredPair devices d n).2 = false ∧
      ∃ e ∈ devices, contends d n e = true ∧ idBit e n = !idBit d n) := by
  have hself := contends_self d n
  by_cases h : ∀ e ∈ devices, contends d n e = true → idBit e n = idBit d n
  · refine .inl ⟨?_, ?_, h⟩
    · rw [Bool.eq_iff_iff, wiredPair_fst]
      exact ⟨fun hall => hall d hd hself, fun hbit e he hc => (h e he hc).trans hbit⟩
    · rw [Bool.eq_iff_iff, wiredPair_snd, Bool.not_eq_true']
      exact ⟨fun hall => hall d hd hself, fun hbit e he hc => (h e he hc).trans hbit⟩
  · push Not at h
    obtain ⟨e, he, hc, hne⟩ := h
    have hother : idBit e n = !idBit d n := Bool.eq_not.mpr hne
    refine .inr ⟨?_, ?_, e, he, hc, hother⟩
    · rw [Bool.eq_false_iff, ne_eq, wiredPair_fst]
      intro hall
      rw [hall e he hc, hall d hd hself] at hother
      cases hother
    · rw [Bool.eq_false_iff, ne_eq, wiredPair_snd]
      intro hall
      rw [hall e he hc, hall d hd hself] at hother
      cases hother

/-! ### A search that follows a device's path -/

/-- From the cursor `c` the search goes the way of `d` wherever a contender differs from it (R145). -/
def Steers (devices : List Ident) (d : Ident) (c : SearchState) : Prop :=
  ∀ n, 1 ≤ n → n ≤ 64 → ∀ e ∈ devices, contends d n e = true → idBit e n = !idBit d n →
    (if n < c.ld.toNat then idBit c.id n else decide (n = c.ld.toNat)) = idBit d n

/-- Some device branches off from the path of `d` at the position, to 1 where `d` has 0. -/
def BranchAt (devices : List Ident) (d : Ident) (n : Nat) : Prop := ∃ e ∈ devices, DivergesAt d e n

theorem directionAt_linePairs {devices : List Ident} {d : Ident} {c : SearchState} (hd : d ∈ devices)
    (hsteers : Steers devices d c) {n : Nat} (hn : 1 ≤ n) (hn' : n ≤ 64) :
    directionAt c.ld c.id (linePairs devices d) n = idBit d n := by
  rw [directionAt, discrepancyAt, pairAt_linePairs devices d hn hn']
  obtain ⟨h1, h2, -⟩ | ⟨h1, h2, e, he, hc, hother⟩ := wiredPair_cases hd n
  · rw [h1, h2]
    simp
  · rw [h1, h2]
    exact hsteers n hn hn' e he hc hother

/-- The positions at which the search records a zero are those at which a later device branches off. -/
theorem zeroAt_linePairs {devices : List Ident} {d : Ident} {c : SearchState} (hd : d ∈ devices)
    (hsteers : Steers devices d c) {n : Nat} (hn : 1 ≤ n) (hn' : n ≤ 64) :
    (discrepancyAt (linePairs devices d) n && !directionAt c.ld c.id (linePairs devices d) n) = true ↔
      BranchAt devices d n := by
  rw [directionAt_linePairs hd hsteers hn hn', discrepancyAt, pairAt_linePairs devices d hn hn']
  constructor
  · intro h
    obtain ⟨h1, h2, -⟩ | ⟨-, -, e, he, hc, hother⟩ := wiredPair_cases hd n
    · simp [h1, h2] at h
    · have hzero : idBit d n = false := by simpa using (Bool.and_eq_true_iff.mp h).2
      refine ⟨e, he, hn, hn', fun m hm hm1 => ((contends_iff d e n).mp hc m hm1 hm).symm, hzero, ?_⟩
      rw [hother, hzero]
      rfl
  · rintro ⟨e, he, -, -, hbefore, hzero, hone⟩
    have hc : contends d n e = true := (contends_iff d e n).mpr fun m hm hm' => (hbefore m hm' hm).symm
    obtain ⟨-, -, hall⟩ | ⟨h1, h2, -⟩ := wiredPair_cases hd n
    · exact absurd (hone.symm.trans ((hall e he hc).trans hzero)) nofun
    · simp [h1, h2, hzero]

/-- `LD` after the search: the last of those positions. -/
theorem lastZeroUpTo_spec (m : Nat) (ld : Byte) (old : Ident) (pairs : List (Bool × Bool)) :
    (lastZeroUpTo m ld old pairs ≠ 0 → 1 ≤ lastZeroUpTo m ld old pairs ∧
      (discrepancyAt pairs (lastZeroUpTo m ld old pairs) &&
        !directionAt ld old pairs (lastZeroUpTo m ld old pairs)) = true) ∧
    ∀ n, 1 ≤ n → n ≤ m → (discrepancyAt pairs n && !directionAt ld old pairs n) = true →
      n ≤ lastZeroUpTo m ld old pairs := by
  induction m with
  | zero => exact ⟨fun h => absurd rfl h, fun n hn hn0 => absurd hn (by omega)⟩
  | succ m ih =>
    rw [lastZeroUpTo_succ]
    split
    next hzero => exact ⟨fun _ => ⟨Nat.le_add_left 1 m, hzero⟩, fun n _ hn _ => hn⟩
    next hzero =>
      refine ⟨ih.1, fun n hn hn' h => ih.2 n hn ?_ h⟩
      have : n ≠ m + 1 := fun heq => hzero (heq ▸ h)
      omega

/-- `z` is the last position at which a device branches off from the path of `d`, or 0 if none does. -/
structure LastBranch (devices : List Ident) (d : Ident) (z : Nat) : Prop where
  range  : z ≤ 64
  branch : z ≠ 0 → BranchAt devices d z
  last   : ∀ n, BranchAt devices d n → n ≤ z

theorem lastBranch_linePairs {devices : List Ident} {d : Ident} {c : SearchState} (hd : d ∈ devices)
    (hsteers : Steers devices d c) :
    LastBranch devices d (lastZeroUpTo 64 c.ld c.id (linePairs devices d)) := by
  obtain ⟨hbranch, hlast⟩ := lastZeroUpTo_spec 64 c.ld c.id (linePairs devices d)
  have hle := lastZeroUpTo_le 64 c.ld c.id (linePairs devices d)
  refine ⟨hle, fun h => ?_, fun n hn => ?_⟩
  · obtain ⟨h1, hzero⟩ := hbranch h
    exact (zeroAt_linePairs hd hsteers h1 hle).mp hzero
  · obtain ⟨e, he, hn1, hn64, hrest⟩ := id hn
    exact hlast n hn1 hn64 ((zeroAt_linePairs hd hsteers hn1 hn64).mpr hn)

/-- What a traversal that reports `d`, with these samples left, leaves in the state. -/
structure Reports (devices : List Ident) (d : Ident) (rest : List Bool) (t : State) : Prop where
  id      : t.blk.id = d
  samples : t.samples = rest
  cursor  : ∃ z, LastBranch devices d z ∧ t.blk.ld = BitVec.ofNat 8 z ∧ t.blk.ldf = decide (z = 0)

/-- A traversal that the cursor steers along the path of a valid device reports it. -/
theorem searchTraverse_reports {devices : List Ident} {d : Ident} {s : State} {rest : List Bool} (hd : d ∈ devices)
    (hvalid : validIdent d) (hldf : s.blk.ldf = false) (hsteers : Steers devices d (searchState s.blk))
    (hs : s.samples = noiseFree (searchLevels devices d) ++ rest) :
    ∃ t, searchTraverse s = ((true, .ok), t) ∧ Reports devices d rest t := by
  have hnew : identityOf (directionAt (searchState s.blk).ld (searchState s.blk).id (linePairs devices d)) = d :=
    ident_ext_bits fun n hn hn' => by rw [idBit_identityOf _ hn hn', directionAt_linePairs hd hsteers hn hn']
  have hbranch := lastBranch_linePairs hd hsteers
  rw [searchLevels_eq hd] at hs
  have htraverse := searchTraverse_completed hldf (linePairs_length devices d) (ones_not_mem_linePairs hd) hs
  simp only [completedSearch, hnew, if_neg (not_not.mpr hvalid.1), if_neg hvalid.2] at htraverse
  exact ⟨_, htraverse, rfl, rfl, _, hbranch, rfl, rfl⟩

/-- `SRCHFIRST` or `SRCHNEXT` so steered. -/
theorem exec_search_reports {i : Instr} {devices : List Ident} {d : Ident} {s : State} {rest : List Bool}
    (hi : i = .srchfirst ∨ (i = .srchnext ∧ s.blk.ldf = false)) (hd : d ∈ devices) (hvalid : validIdent d)
    (hsteers : Steers devices d (startCursor (searchState s.blk) i))
    (hs : s.samples = noiseFree (searchLevels devices d) ++ rest) :
    ∃ t, exec i s = .next t ∧ Reports devices d rest t ∧ t.responses = s.responses ++ [⟨.ok, 1⟩] ∧
      t.inputs = s.inputs := by
  have hframe := searchTraverse_frame (startState i s)
  obtain ⟨t, ht, hid, hsamples, hcursor⟩ := searchTraverse_reports (s := startState i s) hd hvalid
    (startState_ldf (hi.imp_right Or.inl)) hsteers hs
  rw [ht] at hframe
  rw [exec_search_eq (hi.imp_right And.left), ht]
  exact ⟨_, rfl, ⟨hid, hsamples, hcursor⟩, congrArg (· ++ _) hframe.responses, hframe.inputs⟩

/-! ### Which cursors steer along which path (R145, R150, R153) -/

/-- The initial cursor goes to 0 at every discrepancy, which is the way of the first device. -/
theorem steers_initial {devices : List Ident} {d : Ident} (hleast : ∀ e ∈ devices, e = d ∨ precedes d e) :
    Steers devices d initialSearch := by
  intro n hn hn' e he hc hother
  have hzero : idBit d n = false := by
    by_contra hone
    rw [Bool.not_eq_false] at hone
    rw [hone] at hother
    exact absurd ((idBit_eq_false_of_contends hn hc hother (hleast e he)).symm.trans hone) nofun
  show (if n < 0 then _ else decide (n = 0)) = idBit d n
  rw [hzero, if_neg (Nat.not_lt_zero n), decide_eq_false (by omega)]

/-- Of identities with the right CRC, the first 63 positions determine the last one (R126). -/
theorem last_bit_of_valid {a b : Ident} (ha : validIdent a) (hb : validIdent b)
    (h : ∀ m, 1 ≤ m → m < 64 → idBit a m = idBit b m) : idBit a 64 = idBit b 64 := by
  have hcheck : ∀ d : Ident, validIdent d → idByte d 7 = crc8 ((List.range 7).map (idByte d)) := fun d hd => by
    have hsum := hd.1
    rw [toList_eq_map_idByte, List.range_succ, List.map_append] at hsum
    exact (crc8_append_eq_zero_iff _ _).mp hsum
  have hbytes : (List.range 7).map (idByte a) = (List.range 7).map (idByte b) :=
    List.map_congr_left fun k hk => idByte_eq_of_bits fun m hm =>
      h _ (by omega) (by have := List.mem_range.mp hk; omega)
  exact congrArg (byteBit · 7) ((hcheck a ha).trans ((congrArg crc8 hbytes).trans (hcheck b hb).symm))

/-- The cursor that `SRCHVERIFY` forces replays a device on the line; position 64 cannot be a discrepancy. -/
theorem steers_forced {devices : List Ident} {d : Ident} (hd : d ∈ devices) (hvalid : ∀ e ∈ devices, validIdent e)
    (lfd : Byte) : Steers devices d ⟨64, lfd, false, d⟩ := by
  intro n hn hn' e he hc hother
  show (if n < 64 then idBit d n else _) = idBit d n
  by_cases hlt : n < 64
  · exact if_pos hlt
  · obtain rfl : n = 64 := by omega
    have hlast := last_bit_of_valid (hvalid e he) (hvalid d hd) ((contends_iff d e 64).mp hc)
    rw [hlast] at hother
    exact absurd hother (Bool.not_ne_self _).symm

/-- After the search that found `a`, the cursor replays `a` up to the place where the next device `b` branches off, goes
to 1 there and to 0 after it. -/
theorem steers_next {devices : List Ident} {a b : Ident} {p : Nat} {c : SearchState} (hdiv : DivergesAt a b p)
    (horder : ∀ e ∈ devices, (e = a ∨ precedes e a) ∨ (e = b ∨ precedes b e))
    (hld : c.ld = BitVec.ofNat 8 p) (hid : c.id = a) : Steers devices b c := by
  intro n hn hn' e he hc hother
  obtain ⟨hp1, hp64, hbefore, hap, hbp⟩ := id hdiv
  have hld' : c.ld.toNat = p := by
    rw [hld]
    exact Nat.mod_eq_of_lt (by omega)
  rw [hld', hid]
  obtain hlt | rfl | hgt := Nat.lt_trichotomy n p
  · rw [if_pos hlt, hbefore n hlt hn]
  · rw [if_neg (Nat.lt_irrefl n), hbp, decide_eq_true rfl]
  · rw [if_neg hgt.not_gt, decide_eq_false hgt.ne']
    by_contra hone
    have hone' : idBit b n = true := by simpa using (Ne.symm hone)
    rw [hone'] at hother
    obtain hearlier | hlater := horder e he
    · obtain ⟨q, hqp, hq1, -, -, heq, hbq⟩ : ∃ q, q ≤ p ∧ DivergesAt e b q := by
        obtain rfl | ⟨r, hr⟩ := hearlier
        · exact ⟨p, Nat.le_refl p, hdiv⟩
        · exact ⟨min r p, Nat.min_le_right r p, DivergesAt.trans hr hdiv⟩
      have := (contends_iff b e n).mp hc q hq1 (by omega)
      exact absurd (heq.symm.trans (this.trans hbq)) nofun
    · exact absurd ((idBit_eq_false_of_contends hn hc hother hlater).symm.trans hone') nofun

/-! ### Devices listed in position order (R154) -/

/-- Every device is up to the `k`-th one or from the next one on. -/
theorem order_around {devices : List Ident} (hsorted : devices.Pairwise precedes) {k : Nat}
    (hk : k + 1 < devices.length) {e : Ident} (he : e ∈ devices) :
    (e = devices[k] ∨ precedes e devices[k]) ∨ (e = devices[k + 1] ∨ precedes devices[k + 1] e) := by
  obtain ⟨j, hj, rfl⟩ := List.getElem_of_mem he
  rw [List.pairwise_iff_getElem] at hsorted
  obtain hlt | rfl | hgt := Nat.lt_trichotomy j k
  · exact .inl (.inr (hsorted j k hj (by omega) hlt))
  · exact .inl (.inl rfl)
  · obtain rfl | hgt' := Nat.eq_or_lt_of_le (Nat.succ_le_of_lt hgt)
    · exact .inr (.inl rfl)
    · exact .inr (.inr (hsorted (k + 1) j hk hj hgt'))

theorem first_least {devices : List Ident} (hsorted : devices.Pairwise precedes) (h : 0 < devices.length) :
    ∀ e ∈ devices, e = devices[0] ∨ precedes devices[0] e := by
  intro e he
  obtain ⟨j, hj, rfl⟩ := List.getElem_of_mem he
  rw [List.pairwise_iff_getElem] at hsorted
  obtain rfl | hlt := Nat.eq_zero_or_pos j
  · exact .inl rfl
  · exact .inr (hsorted 0 j h hj hlt)

theorem no_branch_before {a e : Ident} (h : e = a ∨ precedes e a) (n : Nat) : ¬ DivergesAt a e n := fun hn => by
  obtain rfl | hea := h
  · exact precedes_irrefl e ⟨n, hn⟩
  · exact precedes_asymm hea ⟨n, hn⟩

/-- The last branch off the path of a device is where the next device leaves it. -/
theorem lastBranch_next {devices : List Ident} (hsorted : devices.Pairwise precedes) {k : Nat}
    (hk : k + 1 < devices.length) {z : Nat} (hz : LastBranch devices devices[k] z) :
    DivergesAt devices[k] devices[k + 1] z := by
  obtain ⟨p, hp⟩ := List.pairwise_iff_getElem.mp hsorted k (k + 1) (by omega) hk (Nat.lt_succ_self k)
  have hpz := hz.last p ⟨_, List.getElem_mem hk, hp⟩
  have hp1 : 1 ≤ p := hp.1
  obtain ⟨e, he, hdiv⟩ := hz.branch (by omega)
  obtain ⟨q, hqp, hq⟩ : ∃ q, q ≤ p ∧ DivergesAt devices[k] e q := by
    obtain hearlier | rfl | ⟨r, hr⟩ := order_around hsorted hk he
    · exact absurd hdiv (no_branch_before hearlier z)
    · exact ⟨p, Nat.le_refl p, hp⟩
    · exact ⟨min p r, Nat.min_le_left p r, DivergesAt.trans hp hr⟩
  have hzq := DivergesAt.unique hdiv hq
  rwa [show z = p by omega]

theorem lastBranch_last {devices : List Ident} (hsorted : devices.Pairwise precedes) {k : Nat}
    (hk : k + 1 = devices.length) {z : Nat} (hz : LastBranch devices devices[k] z) : z = 0 := by
  by_contra hne
  obtain ⟨e, he, hdiv⟩ := hz.branch hne
  obtain ⟨j, hj, rfl⟩ := List.getElem_of_mem he
  obtain heq | hlt := Nat.eq_or_lt_of_le (show j ≤ k by omega)
  · subst heq
    exact no_branch_before (.inl rfl) z hdiv
  · exact no_branch_before (.inr (List.pairwise_iff_getElem.mp hsorted j k hj (by omega) hlt)) z hdiv

/-! ### The enumeration, call by call (R154) -/

theorem run_succ_of_run {m : Nat} {s t u : State} (h : Host.Core.run Sys2Proof.core m s = .next t)
    (hu : step t = .next u) : Host.Core.run Sys2Proof.core (m + 1) s = .next u := by
  induction m generalizing s with
  | zero =>
    cases h
    have hstep : Sys2Proof.core.step t = .next u := hu
    simp only [Host.Core.run, hstep]
  | succ m ih =>
    cases hstep : Sys2Proof.core.step s with
    | next s' =>
      have hrun (n : Nat) : Host.Core.run Sys2Proof.core (n + 1) s = Host.Core.run Sys2Proof.core n s' := by
        simp only [Host.Core.run, hstep]
      rw [hrun] at h ⊢
      exact ih h
    | fault r => simp [Host.Core.run, hstep] at h
    | refused r => simp [Host.Core.run, hstep] at h

theorem samples_of_device (devices : List Ident) (rest : List Bool) {k : Nat} (hk : k < devices.length) :
    noiseFree ((devices.drop k).flatMap (searchLevels devices)) ++ rest =
      noiseFree (searchLevels devices devices[k]) ++
        (noiseFree ((devices.drop (k + 1)).flatMap (searchLevels devices)) ++ rest) := by
  rw [List.drop_eq_getElem_cons hk, List.flatMap_cons, noiseFree, List.flatMap_append, List.append_assoc]
  rfl

theorem programInputs_replicate_succ (n : Nat) (i : Instr) (inputs : List HostInput) :
    programInputs (List.replicate (n + 1) i) ++ inputs =
      .command (encode i) :: (programInputs (List.replicate n i) ++ inputs) := rfl

/-- The state after the call that reports device `k`. -/
structure Enumerated (devices : List Ident) (inputs : List HostInput) (rest : List Bool) (s : State) (k : Nat)
    (hk : k < devices.length) (t : State) : Prop where
  run       : Host.Core.run Sys2Proof.core (k + 1) s = .next t
  reports   : Reports devices devices[k]
    (noiseFree ((devices.drop (k + 1)).flatMap (searchLevels devices)) ++ rest) t
  responses : t.responses = s.responses ++ List.replicate (k + 1) ⟨.ok, 1⟩
  inputs    : t.inputs = programInputs (List.replicate (devices.length - k) .srchnext) ++ inputs

theorem enumerated {devices : List Ident} {inputs : List HostInput} {rest : List Bool} {s : State}
    (hsorted : devices.Pairwise precedes) (hvalid : ∀ e ∈ devices, validIdent e)
    (hin : s.inputs = programInputs (.srchfirst :: List.replicate devices.length .srchnext) ++ inputs)
    (hs : s.samples = noiseFree (devices.flatMap (searchLevels devices)) ++ rest) (k : Nat) (hk : k < devices.length) :
    ∃ t, Enumerated devices inputs rest s k hk t := by
  induction k with
  | zero =>
    have hmem := List.getElem_mem hk
    obtain ⟨t, hexec, hreports, hresp, hinputs⟩ := exec_search_reports (s := { s with
      inputs := programInputs (List.replicate devices.length .srchnext) ++ inputs }) (.inl rfl) hmem (hvalid _ hmem)
      (steers_initial (first_least hsorted hk)) (hs.trans (samples_of_device devices rest hk))
    have hstep : step s = .next t := (Encoding.step_of_encode rfl hin).trans hexec
    exact ⟨t, run_succ_of_run rfl hstep, hreports, hresp, hinputs⟩
  | succ k ih =>
    obtain ⟨t, hrun, ⟨hid, hsamples, z, hbranch, hld, hldf⟩, hresp, hinputs⟩ := ih (by omega)
    have hmem := List.getElem_mem hk
    have hdiv := lastBranch_next hsorted hk hbranch
    have hz : z ≠ 0 := Nat.one_le_iff_ne_zero.mp hdiv.1
    rw [decide_eq_false hz] at hldf
    rw [samples_of_device devices rest hk] at hsamples
    rw [show devices.length - k = devices.length - (k + 1) + 1 by omega, programInputs_replicate_succ] at hinputs
    obtain ⟨u, hexec, hreports, hresp', hinputs'⟩ := exec_search_reports (s := { t with
      inputs := programInputs (List.replicate (devices.length - (k + 1)) .srchnext) ++ inputs }) (.inr ⟨rfl, hldf⟩)
      hmem (hvalid _ hmem) (steers_next hdiv (fun e he => order_around hsorted hk he) hld hid) hsamples
    have hstep : step t = .next u := (Encoding.step_of_encode rfl hinputs).trans hexec
    refine ⟨u, run_succ_of_run hrun hstep, hreports, ?_, hinputs'⟩
    rw [hresp', hresp, List.append_assoc, ← List.replicate_succ']

theorem Enumerated.ldf {devices : List Ident} {inputs : List HostInput} {rest : List Bool} {s t : State} {k : Nat}
    {hk : k < devices.length} (hsorted : devices.Pairwise precedes) (h : Enumerated devices inputs rest s k hk t) :
    t.blk.ldf = true ↔ k + 1 = devices.length := by
  obtain ⟨z, hbranch, -, hldf⟩ := h.reports.cursor
  rw [hldf, decide_eq_true_iff]
  constructor
  · rintro rfl
    by_contra hne
    exact absurd (lastBranch_next hsorted (by omega) hbranch).1 (by decide)
  · exact fun hlast => lastBranch_last hsorted hlast hbranch

theorem exec_srchnext_of_ldf {s : State} (h : s.blk.ldf = true) :
    exec .srchnext s = .next (respond ⟨.searchExhausted, 0⟩ (afterExhaustion s)) := by
  rw [exec_srchnext, searchTraverse_of_ldf h]
  rfl

theorem afterExhaustion_samples (s : State) : (afterExhaustion s).samples = s.samples := by
  unfold afterExhaustion
  split
  · rfl
  · rfl

end Sys2Proof.Machine

open Sys2Proof Sys2Proof.Machine

/-- Settles O45: the initial cursor steers along the path of the first device, off which every other one branches. -/
theorem firstSearchReportsTheLeastDevice : Obligations.FirstSearchReportsTheLeastDevice := by
  intro devices d s rest hd hvalid hleast hs
  obtain ⟨t, hexec, ⟨hid, hsamples, z, hbranch, -, hldf⟩, hresp, -⟩ := exec_search_reports (.inl rfl) hd (hvalid d hd)
    (steers_initial hleast) hs
  refine ⟨t, hexec, hresp, hid, hsamples, ?_⟩
  rw [hldf, decide_eq_true_iff]
  constructor
  · rintro rfl e he
    obtain heq | ⟨n, hn⟩ := hleast e he
    · exact heq
    · exact absurd (hbranch.last n ⟨e, he, hn⟩) (by have := hn.1; omega)
  · intro halone
    by_contra hne
    obtain ⟨e, he, hdiv⟩ := hbranch.branch hne
    exact no_branch_before (.inl (halone e he)) z hdiv

/-- Settles O46: each call's cursor steers to the next device, since its `LD` is where that device branches off; the
last device has no branch, so `LDF` is set and the next call reports exhaustion. -/
theorem enumerationReportsEveryDeviceOnce : Obligations.EnumerationReportsEveryDeviceOnce := by
  intro devices s rest inputs hne hsorted hvalid hin hs
  have hall := enumerated hsorted hvalid hin hs
  refine ⟨fun k d hd => ?_, ?_⟩
  · obtain ⟨hk, rfl⟩ := List.getElem?_eq_some_iff.mp hd
    obtain ⟨t, ht⟩ := hall k hk
    exact ⟨t, ht.run, ht.reports.id, ht.responses, ht.ldf hsorted⟩
  · have hpos := List.length_pos_of_ne_nil hne
    obtain ⟨t, ht⟩ := hall (devices.length - 1) (by omega)
    have hlast : devices.length - 1 + 1 = devices.length := by omega
    have hldf := (ht.ldf hsorted).mpr hlast
    obtain ⟨hrun, hreports, hresp, hinputs⟩ := ht
    rw [hlast] at hrun hresp
    rw [show devices.length - (devices.length - 1) = 0 + 1 by omega, programInputs_replicate_succ] at hinputs
    have hstep := (Encoding.step_of_encode rfl hinputs).trans (exec_srchnext_of_ldf hldf)
    refine ⟨_, run_succ_of_run hrun hstep, ?_, ?_, (afterExhaustion_frame _).inputs⟩
    · rw [respond_responses, (afterExhaustion_frame _).responses]
      exact congrArg (· ++ _) hresp
    · rw [respond_samples, afterExhaustion_samples]
      exact hreports.samples.trans (by rw [hlast, List.drop_length]; rfl)

/-- Settles O47: the forced cursor steers along the path of the device in `ID`. -/
theorem presentDeviceVerifies : Obligations.PresentDeviceVerifies := by
  intro devices s rest hd hvalid hs
  obtain ⟨t, ht, hid, hsamples, -⟩ := searchTraverse_reports (s := startState .srchverify s) hd (hvalid _ hd) rfl
    (steers_forced hd hvalid s.blk.lfd) hs
  have hframe := searchTraverse_frame (startState .srchverify s)
  rw [ht] at hframe
  rw [exec_srchverify_eq, ht]
  refine ⟨_, rfl, ?_, rfl, hsamples⟩
  rw [respond_responses, hid, beq_self_eq_true]
  exact congrArg (· ++ _) hframe.responses

end

section
/-! PROOFS. No result depends on a duration (spec/70_reset_and_hazards.md R250): two runs of one command that start in
states with other live timing constants differ in those constants and in the durations of their events only. -/

namespace Sys2Proof.Machine

/-- The state with other live timing constants and another trace. -/
def retime (lt : TimingTable Duration) (tr : List LineEvent) (s : State) : State :=
  { s with blk := { s.blk with lt := lt }, trace := tr }

/-- `u` differs from `s` in the live timing constants and in the durations of the events only. -/
def Retimed (s u : State) : Prop :=
  ∃ lt tr, u = retime lt tr s ∧ tr.map eraseDuration = s.trace.map eraseDuration

/-! ### The bit and byte procedures -/

theorem map_append_erase {tr tr' es es' : List LineEvent} (h : tr'.map eraseDuration = tr.map eraseDuration)
    (hes : es'.map eraseDuration = es.map eraseDuration) :
    (tr' ++ es').map eraseDuration = (tr ++ es).map eraseDuration := by
  rw [List.map_append, List.map_append, h, hes]

theorem writeEvents_erase (b : Block) (lt : TimingTable Duration) (bit : Bool) :
    (writeEvents { b with lt := lt } bit).map eraseDuration = (writeEvents b bit).map eraseDuration := by
  cases bit <;> rfl

theorem readEvents_erase (b : Block) (lt : TimingTable Duration) (r : List Bool) :
    (readEvents { b with lt := lt } r).map eraseDuration = (readEvents b r).map eraseDuration := rfl

theorem writeByteEvents_erase (b : Block) (lt : TimingTable Duration) (v : Byte) :
    (writeByteEvents { b with lt := lt } v).map eraseDuration = (writeByteEvents b v).map eraseDuration := by
  simp only [writeByteEvents, List.cons_append, List.map_cons, List.map_append, List.map_flatMap, writeEvents_erase]

theorem readByteEvents_erase (b : Block) (lt : TimingTable Duration) (r : List Bool) :
    (readByteEvents { b with lt := lt } r).map eraseDuration = (readByteEvents b r).map eraseDuration := by
  simp only [readByteEvents, List.cons_append, List.map_cons, List.map_append, List.map_flatMap, readEvents_erase]

theorem busReset_retimed {s u : State} (h : Retimed s u) :
    (busReset u).1 = (busReset s).1 ∧ Retimed (busReset s).2 (busReset u).2 := by
  obtain ⟨lt, tr, rfl, htr⟩ := h
  rw [busReset_eq, busReset_eq]
  exact ⟨rfl, lt, _, rfl, map_append_erase htr rfl⟩

theorem writeBit_retimed {s u : State} (h : Retimed s u) (bit : Bool) : Retimed (writeBit bit s) (writeBit bit u) := by
  obtain ⟨lt, tr, rfl, htr⟩ := h
  rw [writeBit_eq, writeBit_eq]
  exact ⟨lt, _, rfl, map_append_erase htr (writeEvents_erase s.blk lt bit)⟩

theorem readBit_retimed {s u : State} (h : Retimed s u) :
    (readBit u).1 = (readBit s).1 ∧ Retimed (readBit s).2 (readBit u).2 := by
  obtain ⟨lt, tr, rfl, htr⟩ := h
  rw [readBit_eq, readBit_eq]
  exact ⟨rfl, lt, _, rfl, map_append_erase htr rfl⟩

theorem writeByte_retimed {s u : State} (h : Retimed s u) (v : Byte) : Retimed (writeByte v s) (writeByte v u) := by
  obtain ⟨lt, tr, rfl, htr⟩ := h
  rw [writeByte_eq, writeByte_eq]
  exact ⟨lt, _, rfl, map_append_erase htr (writeByteEvents_erase s.blk lt v)⟩

theorem readByte_retimed {s u : State} (h : Retimed s u) :
    (readByte u).1 = (readByte s).1 ∧ Retimed (readByte s).2 (readByte u).2 := by
  obtain ⟨lt, tr, rfl, htr⟩ := h
  rw [readByte_eq, readByte_eq]
  exact ⟨rfl, lt, _, rfl, map_append_erase htr (readByteEvents_erase s.blk lt _)⟩

theorem delay_retimed {s u : State} (h : Retimed s u) (name : WaitName) (d d' : Nat) :
    Retimed (delay name d s) (delay name d' u) := by
  obtain ⟨lt, tr, rfl, htr⟩ := h
  exact ⟨lt, _, rfl, map_append_erase htr rfl⟩

theorem respond_retimed {s u : State} (h : Retimed s u) (r : Response) : Retimed (respond r s) (respond r u) := by
  obtain ⟨lt, tr, rfl, htr⟩ := h
  exact ⟨lt, tr, rfl, htr⟩

theorem setSearchState_retimed {s u : State} (h : Retimed s u) (c : SearchState) :
    Retimed { s with blk := setSearchState c s.blk } { u with blk := setSearchState c u.blk } := by
  obtain ⟨lt, tr, rfl, htr⟩ := h
  exact ⟨lt, tr, rfl, htr⟩

theorem Retimed.searchState_eq {s u : State} (h : Retimed s u) : searchState u.blk = searchState s.blk := by
  obtain ⟨lt, tr, rfl, -⟩ := h
  rfl

theorem Retimed.id_eq {s u : State} (h : Retimed s u) : u.blk.id = s.blk.id := congrArg SearchState.id h.searchState_eq

theorem startState_retimed {s u : State} (h : Retimed s u) (i : Instr) : Retimed (startState i s) (startState i u) := by
  rw [startState, startState, h.searchState_eq]
  exact setSearchState_retimed h _

/-! ### The traversal -/

theorem searchPosition_retimed {s u : State} (h : Retimed s u) (t : Traversal) :
    (searchPosition t u).1 = (searchPosition t s).1 ∧ Retimed (searchPosition t s).2 (searchPosition t u).2 := by
  obtain ⟨lt, tr, rfl, htr⟩ := h
  have hfirst : firstSamples (retime lt tr s) = firstSamples s := rfl
  have hsecond : secondSamples (retime lt tr s) = secondSamples s := rfl
  cases h1 : majority (firstSamples s) <;> cases h2 : majority (secondSamples s)
  case true.true =>
    rw [searchPosition_of_ones h1 h2, searchPosition_of_ones (hfirst ▸ h1) (hsecond ▸ h2)]
    exact ⟨rfl, lt, _, rfl, map_append_erase htr rfl⟩
  all_goals
    rw [searchPosition_of_pair h1 h2 rfl, searchPosition_of_pair (hfirst ▸ h1) (hsecond ▸ h2) rfl]
    exact ⟨rfl, lt, _, rfl, map_append_erase (map_append_erase htr rfl) (writeEvents_erase s.blk lt _)⟩

theorem searchLoop_retimed (k : Nat) {s u : State} (h : Retimed s u) (t : Traversal) :
    (searchLoop k t u).1 = (searchLoop k t s).1 ∧ Retimed (searchLoop k t s).2 (searchLoop k t u).2 := by
  induction k generalizing t s u with
  | zero => exact ⟨rfl, h⟩
  | succ k ih =>
    obtain ⟨ht, hu⟩ := searchPosition_retimed h t
    simp only [searchLoop, ht]
    split
    · exact ⟨rfl, hu⟩
    · exact ih hu _

theorem searchVerdict_retimed {s u : State} (h : Retimed s u) (t : Traversal) :
    (searchVerdict t u).1 = (searchVerdict t s).1 ∧ Retimed (searchVerdict t s).2 (searchVerdict t u).2 := by
  have hreset := setSearchState_retimed h ⟨0, 0, false, zeroIdent⟩
  rw [searchVerdict_eq, searchVerdict_eq, h.id_eq]
  split
  · exact ⟨rfl, hreset⟩
  split
  · exact ⟨rfl, hreset⟩
  split
  · exact ⟨rfl, hreset⟩
  · obtain ⟨lt, tr, rfl, htr⟩ := h
    exact ⟨rfl, lt, tr, rfl, htr⟩

theorem afterExhaustion_retimed {s u : State} (h : Retimed s u) :
    Retimed (afterExhaustion s) (afterExhaustion u) := by
  obtain ⟨lt, tr, rfl, htr⟩ := h
  have hpolicy : (retime lt tr s).policy = s.policy := rfl
  unfold afterExhaustion
  rw [hpolicy]
  split
  · exact ⟨lt, tr, rfl, htr⟩
  · exact ⟨lt, tr, rfl, htr⟩

theorem searchTraverse_eq (s : State) :
    searchTraverse s =
      if s.blk.ldf then ((false, .searchExhausted), afterExhaustion s)
      else if (busReset s).1 then
        searchVerdict (searchLoop 64 traversalStart (writeByte Config.cmdSearchRom (busReset s).2)).1
          (searchLoop 64 traversalStart (writeByte Config.cmdSearchRom (busReset s).2)).2
      else ((false, .noPresence), resetSearch (busReset s).2) := by
  obtain ⟨hset, e⟩ | ⟨hclear, habsent, e⟩ | ⟨hclear, hpresent, t, u, hloop, e⟩ := searchTraverse_cases s
  · rw [e, if_pos hset]
  · rw [e, hclear, habsent]
    rfl
  · rw [e, hclear, hpresent, hloop]
    rfl

theorem searchTraverse_retimed {s u : State} (h : Retimed s u) :
    (searchTraverse u).1 = (searchTraverse s).1 ∧ Retimed (searchTraverse s).2 (searchTraverse u).2 := by
  have hldf : u.blk.ldf = s.blk.ldf := congrArg SearchState.ldf h.searchState_eq
  obtain ⟨hpresence, hreset⟩ := busReset_retimed h
  obtain ⟨htraversal, hloop⟩ := searchLoop_retimed 64 (writeByte_retimed hreset Config.cmdSearchRom) traversalStart
  rw [searchTraverse_eq, searchTraverse_eq, hldf, hpresence, htraversal]
  split
  · exact ⟨rfl, afterExhaustion_retimed h⟩
  · split
    · exact searchVerdict_retimed hloop _
    · exact ⟨rfl, setSearchState_retimed hreset _⟩

/-! ### The commands -/

/-- Both outcomes are next states that differ in durations only. -/
def SameOutcome (o o' : Host.Outcome State Fault Refusal) : Prop := ∃ t u, o = .next t ∧ o' = .next u ∧ Retimed t u

theorem sameOutcome_respond {t u : State} (h : Retimed t u) {r r' : Response} (hr : r' = r) :
    SameOutcome (.next (respond r t)) (.next (respond r' u)) := by
  subst hr
  exact ⟨_, _, rfl, rfl, respond_retimed h r'⟩

theorem exec_init_sameOutcome {s u : State} (h : Retimed s u) : SameOutcome (exec .init s) (exec .init u) := by
  obtain ⟨lt, tr, rfl, htr⟩ := h
  rw [exec_init, exec_init, presentedTiming_state, presentedTiming_state]
  refine sameOutcome_respond ?_ rfl
  exact ⟨_, tr, rfl, htr⟩

/-- A command whose meaning is a change of registers that neither reads nor writes `LT`. -/
theorem sameOutcome_of_registers {s u : State} (h : Retimed s u) (f : Block → Block) (g : Block → Response)
    (hf : ∀ b lt, f { b with lt := lt } = { f b with lt := lt }) (hg : ∀ b lt, g { b with lt := lt } = g b) :
    SameOutcome (.next (respond (g s.blk) { s with blk := f s.blk }))
      (.next (respond (g u.blk) { u with blk := f u.blk })) := by
  obtain ⟨lt, tr, rfl, htr⟩ := h
  refine sameOutcome_respond ?_ (hg s.blk lt)
  exact ⟨lt, tr, congrArg (fun b => { retime lt tr s with blk := b }) (hf s.blk lt), htr⟩

theorem exec_sameOutcome (i : Instr) {s u : State} (h : Retimed s u) : SameOutcome (exec i s) (exec i u) := by
  by_cases hwf : i.WellFormed
  case neg =>
    rw [exec_of_not_wellFormed hwf, exec_of_not_wellFormed hwf]
    exact sameOutcome_respond h rfl
  cases i with
  | init => exact exec_init_sameOutcome h
  | selch n =>
    rw [exec_selch, exec_selch]
    exact sameOutcome_of_registers h (selectChannel n) (fun b => ⟨.ok, (selectChannel n b).ch⟩)
      (fun b lt => by rw [selectChannel_eq, selectChannel_eq]) (fun b lt => by rw [selectChannel_eq, selectChannel_eq])
  | waitconv =>
    rw [exec_waitconv, exec_waitconv]
    exact sameOutcome_respond (delay_retimed h ..) rfl
  | owreset =>
    obtain ⟨hpresence, hreset⟩ := busReset_retimed h
    rw [exec_owreset, exec_owreset, hpresence]
    exact sameOutcome_respond hreset rfl
  | owwbit x =>
    obtain ⟨bit, hbit⟩ := exists_bitOperand (of_decide_eq_true hwf)
    rw [exec_owwbit hbit, exec_owwbit hbit]
    exact sameOutcome_respond (writeBit_retimed h bit) rfl
  | owrbit =>
    obtain ⟨hlevel, hread⟩ := readBit_retimed h
    rw [exec_owrbit, exec_owrbit, hlevel]
    exact sameOutcome_respond hread rfl
  | owwbyte v =>
    rw [exec_owwbyte, exec_owwbyte]
    exact sameOutcome_respond (writeByte_retimed h v) rfl
  | owrbyte =>
    obtain ⟨hbyte, hread⟩ := readByte_retimed h
    rw [exec_owrbyte, exec_owrbyte, hbyte]
    exact sameOutcome_respond hread rfl
  | crcinit =>
    rw [exec_crcinit, exec_crcinit]
    exact sameOutcome_of_registers h (fun b => { b with crcAcc := 0, nz := false }) (fun _ => ⟨.ok, 0⟩)
      (fun _ _ => rfl) (fun _ _ => rfl)
  | crcupd v =>
    rw [exec_crcupd, exec_crcupd]
    exact sameOutcome_of_registers h (fun b => { b with crcAcc := crc8Update b.crcAcc v, nz := nzAfter b.nz v })
      (fun b => ⟨.ok, crc8Update b.crcAcc v⟩) (fun _ _ => rfl) (fun _ _ => rfl)
  | crcchk v =>
    rw [exec_crcchk, exec_crcchk]
    exact sameOutcome_of_registers h id (fun b => crcVerdict b.crcAcc b.nz v) (fun _ _ => rfl) (fun _ _ => rfl)
  | srchfirst =>
    obtain ⟨hanswer, hstate⟩ := searchTraverse_retimed (startState_retimed h .srchfirst)
    rw [exec_search_eq (.inl rfl), exec_search_eq (.inl rfl), hanswer]
    exact sameOutcome_respond hstate rfl
  | srchnext =>
    obtain ⟨hanswer, hstate⟩ := searchTraverse_retimed (startState_retimed h .srchnext)
    rw [exec_search_eq (.inr rfl), exec_search_eq (.inr rfl), hanswer]
    exact sameOutcome_respond hstate rfl
  | srchverify =>
    obtain ⟨hanswer, hstate⟩ := searchTraverse_retimed (startState_retimed h .srchverify)
    rw [exec_srchverify_eq, exec_srchverify_eq, hanswer, hstate.id_eq, h.id_eq, h.searchState_eq]
    exact sameOutcome_respond (setSearchState_retimed hstate _) rfl
  | idrd k =>
    rw [exec_idrd (of_decide_eq_true hwf), exec_idrd (of_decide_eq_true hwf)]
    exact sameOutcome_of_registers h id (fun b => ⟨.ok, memRead b k.toNat⟩) (fun _ _ => rfl) (fun _ _ => rfl)
  | idwr k v =>
    rw [exec_idwr (of_decide_eq_true hwf), exec_idwr (of_decide_eq_true hwf)]
    exact sameOutcome_of_registers h (memWrite k.toNat v) (fun _ => ⟨.ok, 0⟩) (fun _ _ => rfl) (fun _ _ => rfl)
  | strd sel =>
    obtain ⟨v, hv⟩ := exists_selectOperand (of_decide_eq_true hwf) s.blk
    have hv' : selectOperand sel u.blk = some v := by
      obtain ⟨lt, tr, rfl, -⟩ := h
      exact hv
    rw [exec_strd hv, exec_strd hv']
    exact sameOutcome_respond h rfl

end Sys2Proof.Machine

open Sys2Proof Sys2Proof.Machine

/-- Settles O17: durations go into the events only, and no operation reads an event. -/
theorem noResultDependsOnADuration : Obligations.NoResultDependsOnADuration := by
  intro i s lt
  obtain ⟨t, u, ht, hu, lt', tr, rfl, htr⟩ := exec_sameOutcome i (s := s) ⟨lt, s.trace, rfl, rfl⟩
  exact ⟨t, _, ht, hu, rfl, rfl, rfl, rfl, rfl, htr⟩

end

section
/-! PROOFS. The surrounding software's contract (spec/49_surrounding_software.md R181 to R183, R187): the registry and
the 12-bit temperature format. -/

namespace Sys2Proof.Machine

/-! ### The registry (R181 to R183) -/

/-- The slot of the table, if there is one. -/
def registrySlot (t : Registry) (c k : Nat) : Option Ident := t[c]?.bind (·[k]?)

/-- A load depends on the slot alone. -/
theorem registryLoad_eq (t : Registry) (c k : Nat) :
    registryLoad t c k = (registrySlot t c k).bind fun d => if validate d.toList = some true then some d else none := by
  unfold registryLoad registrySlot
  cases hc : t[c]? with
  | none => rfl
  | some slots =>
    cases hk : slots[k]? with
    | none => simp [hk]
    | some d => simp [hk]

theorem registryLoad_of_valid {t : Registry} {c k : Nat} {d : Ident} (h : registrySlot t c k = some d)
    (hd : validIdent d) : registryLoad t c k = some d := by
  rw [registryLoad_eq, h, Option.bind_some, if_pos ((crcTestFormsAgree.2 d).mpr hd)]

theorem registryLoad_of_blank {t : Registry} {c k : Nat} (h : registrySlot t c k = some zeroIdent) :
    registryLoad t c k = none := by
  have hblank : ¬ validate zeroIdent.toList = some true := fun hvalid =>
    ((crcTestFormsAgree.2 zeroIdent).mp hvalid).2 (Eq.refl zeroIdent)
  rw [registryLoad_eq, h, Option.bind_some, if_neg hblank]

theorem registrySlot_save_same {t : Registry} {c k : Nat} {slots : List Ident} (hc : t[c]? = some slots)
    (hk : k < slots.length) (d : Ident) : registrySlot (registrySave t c k d) c k = some d := by
  simp [registrySlot, registrySave, hc, hk]

theorem registrySlot_clear {t : Registry} {c k : Nat} {slots : List Ident} (hc : t[c]? = some slots)
    (hk : k < slots.length) : registrySlot (registryClear t c) c k = some zeroIdent := by
  simp [registrySlot, registryClear, hc, hk]

theorem registrySlot_save_other (t : Registry) {c k c' k' : Nat} (h : (c', k') ≠ (c, k)) (d : Ident) :
    registrySlot (registrySave t c k d) c' k' = registrySlot t c' k' := by
  unfold registrySlot registrySave
  by_cases hc : c = c'
  · subst hc
    have hk : k ≠ k' := fun hk => h (by rw [hk])
    cases hslots : t[c]? with
    | none => simp [hslots]
    | some slots => simp [hslots, List.getElem?_set_ne hk]
  · rw [List.getElem?_modify_ne _ _ hc]

/-! ### The 12-bit temperature format (R187) -/

theorem toInt_emod_sixteen (p : BitVec 16) : p.toInt % 16 = ((p.toNat % 16 : Nat) : Int) := by
  rw [BitVec.toInt_eq_toNat_cond]
  split <;> omega

end Sys2Proof.Machine

open Sys2Proof Sys2Proof.Machine

/-- Settles O52: a load reads one slot, and a save or clear says what each slot holds after it. -/
theorem registryRoundTrip : Obligations.RegistryRoundTrip := by
  rintro t c k d ⟨slots, hc, hk⟩
  refine ⟨registryLoad_of_valid (registrySlot_save_same hc hk d),
    registryLoad_of_blank (registrySlot_save_same hc hk zeroIdent), registryLoad_of_blank (registrySlot_clear hc hk),
    fun c' k' h => ?_⟩
  rw [registryLoad_eq, registryLoad_eq, registrySlot_save_other t h]

/-- Settles O53: degrees and sixteenths are the quotient and the remainder of the signed pair by 16. -/
theorem twelveBitDecodeIsExact : Obligations.TwelveBitDecodeIsExact := by
  intro s0 s1
  have hmod := toInt_emod_sixteen (rawPair s0 s1)
  have hdiv := Int.ediv_mul_add_emod (rawPair s0 s1).toInt 16
  refine ⟨?_, ?_⟩
  · simp only [decodeTwelveBit]
    rwa [Nat.mul_div_cancel _ (by decide), ← hmod]
  · simp only [decodeTwelveBit]
    omega

end
